-- ==== Sys2Proof/Word.lean ====
section
/-! DEFINITION. The word types of the register interface (rule R9: every register value is an unsigned 32-bit word). -/

namespace Sys2Proof

/-- A 32-bit register value, write datum or physical byte address (rules R4, R9, R62). -/
abbrev Word := BitVec 32

/-- A byte: one byte of a stored transaction word, or one posted diagnostic character (rule R331). -/
abbrev Byte := BitVec 8

end Sys2Proof
end

