-- ==== Sys2Proof/Names.lean ====
section
/-! DEFINITION. The spec's names as types: PLLs, clusters, partitions, gates, reset lines, apertures; and records
with one value for each name of a kind. -/

namespace Sys2Proof

/-- The two chip generations of rule R2. -/
inductive Chip where
  | t30 | t11x
  deriving DecidableEq, Repr

/-- The phase-locked loops (rule R106). -/
inductive PllId where
  | sys | cpu | usb
  deriving DecidableEq, Repr

/-- A CPU cluster: `P` performance, `E` efficiency (rule R12). -/
inductive Cluster where
  | p | e
  deriving DecidableEq, Repr

/-- The answer of `queryBootCluster` (rule R12): a cluster, or `Unknown`, which no register holds. -/
inductive ClusterId where
  | unknown | performance | efficiency
  deriving DecidableEq, Repr

/-- The five power partitions, in the order of their identifiers 0 to 4 (rules R106, R190). -/
inductive Part where
  | rail | nonCpuP | cpu0P | nonCpuE | cpuE
  deriving DecidableEq, Repr

/-- The six bits of `CLK_ENB` and of `RST_DEV`: the CPU (the CPU clock gate, the whole-complex reset line) and the
five boot-required peripherals (rules R30, R31, R106). -/
inductive Gate where
  | cpu | timer | gpio | memc | dma0 | dma1
  deriving DecidableEq, Repr

/-- The five kinds of reset line a core has (rule R32). -/
inductive LineKind where
  | cpu | dbg | core | wd | cx
  deriving DecidableEq, Repr

/-- The eight address windows of rule R102. -/
inductive Aperture where
  | car | flow | pmc | fuse | ahb | tmr | dbg | bir
  deriving DecidableEq, Repr

/-- How `program` waits for a PLL (rule R281). -/
inductive LockStrategy where
  | pollLock | fixedDelay
  deriving DecidableEq, Repr

/-- When `program` clears the bypass (rule R280 and conflict C4). -/
inductive BypassPhase where
  | withEnable | afterLock
  deriving DecidableEq, Repr

/-- What a countdown does that covers an enabled PLL with a zero divider, which can never settle: the spec says both
(log entry 17). -/
inductive ZeroDividerStall where
  /-- It never expires, and a poll of `EXPIRED` hangs (rules R247 and R321). -/
  | hangs
  /-- It expires, and the stall returns with the PLL not stable (rule R281, case U1). -/
  | returns
  deriving DecidableEq, Repr

/-- Direction of the soft-reset mirror (rule R295, step 3). -/
inductive MirrorDirection where
  | activeToOther | otherToActive
  deriving DecidableEq, Repr

/-- Reading of the efficiency-cluster bond-out test (rule R287 and conflict C5). -/
inductive EffPolarity where
  | literal | inverted
  deriving DecidableEq, Repr

/-- One value per PLL. -/
structure PerPll (α : Type) where
  sys : α
  cpu : α
  usb : α
  deriving DecidableEq, Repr

/-- One value per cluster. -/
structure PerCluster (α : Type) where
  p : α
  e : α
  deriving DecidableEq, Repr

/-- One value per power partition. -/
structure PerPart (α : Type) where
  rail : α
  nonCpuP : α
  cpu0P : α
  nonCpuE : α
  cpuE : α
  deriving DecidableEq, Repr

/-- One value per aperture. -/
structure PerAperture (α : Type) where
  car : α
  flow : α
  pmc : α
  fuse : α
  ahb : α
  tmr : α
  dbg : α
  bir : α
  deriving DecidableEq, Repr

/-- One value per gate. -/
structure PerGate (α : Type) where
  cpu : α
  timer : α
  gpio : α
  memc : α
  dma0 : α
  dma1 : α
  deriving DecidableEq, Repr

/-- One value per kind of reset line. -/
structure PerKind (α : Type) where
  cpu : α
  dbg : α
  core : α
  wd : α
  cx : α
  deriving DecidableEq, Repr

variable {α : Type}

/-- The entry of one PLL. -/
def PerPll.get (x : PerPll α) : PllId → α
  | .sys => x.sys
  | .cpu => x.cpu
  | .usb => x.usb

/-- Replace the entry of one PLL. -/
def PerPll.set (x : PerPll α) (i : PllId) (a : α) : PerPll α :=
  match i with
  | .sys => { x with sys := a }
  | .cpu => { x with cpu := a }
  | .usb => { x with usb := a }

/-- The entry of one cluster. -/
def PerCluster.get (x : PerCluster α) : Cluster → α
  | .p => x.p
  | .e => x.e

/-- Replace the entry of one cluster. -/
def PerCluster.set (x : PerCluster α) (i : Cluster) (a : α) : PerCluster α :=
  match i with
  | .p => { x with p := a }
  | .e => { x with e := a }

/-- The entry of one partition. -/
def PerPart.get (x : PerPart α) : Part → α
  | .rail => x.rail
  | .nonCpuP => x.nonCpuP
  | .cpu0P => x.cpu0P
  | .nonCpuE => x.nonCpuE
  | .cpuE => x.cpuE

/-- Replace the entry of one partition. -/
def PerPart.set (x : PerPart α) (i : Part) (a : α) : PerPart α :=
  match i with
  | .rail => { x with rail := a }
  | .nonCpuP => { x with nonCpuP := a }
  | .cpu0P => { x with cpu0P := a }
  | .nonCpuE => { x with nonCpuE := a }
  | .cpuE => { x with cpuE := a }

/-- The entry of one aperture. -/
def PerAperture.get (x : PerAperture α) : Aperture → α
  | .car => x.car
  | .flow => x.flow
  | .pmc => x.pmc
  | .fuse => x.fuse
  | .ahb => x.ahb
  | .tmr => x.tmr
  | .dbg => x.dbg
  | .bir => x.bir

/-- The entry of one gate. -/
def PerGate.get (x : PerGate α) : Gate → α
  | .cpu => x.cpu
  | .timer => x.timer
  | .gpio => x.gpio
  | .memc => x.memc
  | .dma0 => x.dma0
  | .dma1 => x.dma1

/-- The entry of one kind of line. -/
def PerKind.get (x : PerKind α) : LineKind → α
  | .cpu => x.cpu
  | .dbg => x.dbg
  | .core => x.core
  | .wd => x.wd
  | .cx => x.cx

/-- A value for every PLL. -/
def PerPll.ofFn (f : PllId → α) : PerPll α := { sys := f .sys, cpu := f .cpu, usb := f .usb }

/-- A value for every cluster. -/
def PerCluster.ofFn (f : Cluster → α) : PerCluster α := { p := f .p, e := f .e }

/-- A value for every partition. -/
def PerPart.ofFn (f : Part → α) : PerPart α :=
  { rail := f .rail, nonCpuP := f .nonCpuP, cpu0P := f .cpu0P, nonCpuE := f .nonCpuE, cpuE := f .cpuE }

/-- A value for every gate. -/
def PerGate.ofFn (f : Gate → α) : PerGate α :=
  { cpu := f .cpu, timer := f .timer, gpio := f .gpio, memc := f .memc, dma0 := f .dma0, dma1 := f .dma1 }

/-- A value for every kind of line. -/
def PerKind.ofFn (f : LineKind → α) : PerKind α :=
  { cpu := f .cpu, dbg := f .dbg, core := f .core, wd := f .wd, cx := f .cx }

/-- All PLLs. -/
def PllId.all : List PllId := [.sys, .cpu, .usb]

/-- All partitions, in the order of their identifiers (rule R106). -/
def Part.all : List Part := [.rail, .nonCpuP, .cpu0P, .nonCpuE, .cpuE]

/-- All gates. -/
def Gate.all : List Gate := [.cpu, .timer, .gpio, .memc, .dma0, .dma1]

/-- The gates of the boot-required peripherals (rule R30). -/
def Gate.periphs : List Gate := [.timer, .gpio, .memc, .dma0, .dma1]

/-- All kinds of reset line. -/
def LineKind.all : List LineKind := [.cpu, .dbg, .core, .wd, .cx]

/-- The other cluster (rule R12). -/
def Cluster.other : Cluster → Cluster
  | .p => .e
  | .e => .p

/-- Reset lines of one cluster: per kind bit `n` for core `n`, and the line of the non-CPU logic (rules R32, R107). A
value is also a `ResetDomainMask`. -/
structure Lines where
  core : PerKind Word
  nonCpu : Bool
  deriving DecidableEq, Repr

end Sys2Proof
end

