-- ==== Sys2Proof/Machine/ResetLines.lean ====
section
/-! DEFINITION. Sets of reset lines of one cluster: the set and clear laws, and the named masks (rules R107, R215, R221,
R296). -/

namespace Sys2Proof

/-- No line. -/
def Lines.none : Lines := { core := .ofFn fun _ => 0, nonCpu := false }

/-- The lines in both. -/
def Lines.and (x y : Lines) : Lines :=
  { core := .ofFn fun k => x.core.get k &&& y.core.get k, nonCpu := x.nonCpu && y.nonCpu }

/-- The lines in either: the set law (rule R296). -/
def Lines.or (x y : Lines) : Lines :=
  { core := .ofFn fun k => x.core.get k ||| y.core.get k, nonCpu := x.nonCpu || y.nonCpu }

/-- The lines of the first that are not in the second: the clear law (rule R296). -/
def Lines.without (x y : Lines) : Lines :=
  { core := .ofFn fun k => x.core.get k &&& ~~~y.core.get k, nonCpu := x.nonCpu && !y.nonCpu }

/-- The two have a line in common. -/
def Lines.meets (x y : Lines) : Bool := Lines.and x y != .none

/-- All five lines of the cores in a set, and the non-CPU line or not (rule R107). -/
def Lines.ofCores (cores : Word) (nonCpu : Bool) : Lines := { core := .ofFn fun _ => cores, nonCpu := nonCpu }

/-- The cores of a cluster of `n`: cores 0 to `n − 1`. -/
def presentCores (n : Nat) : Word := BitVec.ofNat 32 (2 ^ n - 1)

/-- `NONCPU` (rule R107). -/
def nonCpuLine : Lines := .ofCores 0 true

/-- The lines of the given kinds, of the cores in a set (rule R107). -/
def Lines.ofKinds (kinds : PerKind Bool) (cores : Word) : Lines :=
  { core := .ofFn fun k => if kinds.get k then cores else 0, nonCpu := false }

/-- Core 0's line of every kind, those whose release needs its partition powered (rule R221). -/
def core0Lines : Lines := { core := .ofFn fun _ => 1, nonCpu := false }

/-- Core 0's lines without the watchdog's, those the running of core 0 depends on (rules R58, R221, conflict C3). -/
def core0RunLines : Lines := { core0Lines with core := { core0Lines.core with wd := 0 } }

/-- The lines of every core that is not core 0, present or not (rule R221). -/
def otherCoresLines : Lines := .ofCores (~~~1) false

/-- The lines of the given kinds of the cores other than core 0 of a cluster of `n` (rule R107). -/
def secondaryLines (kinds : PerKind Bool) (n : Nat) : Lines := .ofKinds kinds (presentCores n &&& ~~~1)

/-- `valid[c]`: the defined bits of `RST_CMPLX[c]` for a cluster of `n` cores (rule R215). -/
def definedLines (n : Nat) : Lines := .ofCores (presentCores n) true

end Sys2Proof
end

