-- ==== Sys2Proof/Elements.lean ====
section
/-! DEFINITION. The state elements of the block and its inputs, as one record (`spec/10_state.md`, rules R23 to R55).
Registers are held by field, so a reserved bit has no place to be stored and reads 0 (rule R90). A field of more than
one bit is held as a word, zero-extended: its width is the configuration's (rule R16; `FieldPlace`). -/

namespace Sys2Proof

/-- The stored fields of `PLL_BASE[p]`; `LOCK` is computed, not stored (rules R35, R50). -/
structure PllBase where
  divm : Word
  divn : Word
  divp : Word
  enable : Bool
  bypass : Bool
  deriving DecidableEq, Repr

/-- The fields of `PLL_MISC[p]` (rule R36). -/
structure PllMisc where
  setup : Word
  lockEnable : Bool
  deriving DecidableEq, Repr

/-- The fields of one auxiliary output tap (rule R37). -/
structure Tap where
  rstn : Bool
  clken : Bool
  ratio : Word
  deriving DecidableEq, Repr

/-- A tap held in reset with its output off and ratio 0. -/
def Tap.off : Tap := { rstn := false, clken := false, ratio := 0 }

/-- Tap `k` of a PLL's taps; the fields of a tap it does not have are 0 (rule R37). -/
def tapAt (taps : List Tap) (k : Nat) : Tap := taps.getD k .off

/-- The taps with tap `k` replaced; a place before it that is missing is off. -/
def setTap : List Tap → Nat → Tap → List Tap
  | [], 0, t => [t]
  | [], k + 1, t => .off :: setTap [] k t
  | _ :: taps, 0, t => t :: taps
  | x :: taps, k + 1, t => x :: setTap taps k t

/-- The fields of a super-clock divider (rules R27, R29; log entry 10). -/
structure Divider where
  enb : Bool
  dividend : Word
  divisor : Word
  deriving DecidableEq, Repr

/-- The boot information record (rule R49). -/
structure BootRecord where
  sigVersion : Word
  sigDataVersion : Word
  oscFreq : Word
  bootType : Word
  sdramInit : Bool
  devInit : Bool
  deriving DecidableEq, Repr

/-- A set of settle processes: `PllSettle(p)` and `ClampSettle(i)` (rules R53, R56). -/
structure SettleSet where
  pll : PerPll Bool
  clamp : PerPart Bool
  deriving DecidableEq, Repr

/-- The empty set of settle processes. -/
def SettleSet.empty : SettleSet := { pll := .ofFn fun _ => false, clamp := .ofFn fun _ => false }

/-- The registers, the hidden state and the inputs of the block. -/
structure HwState where
  /-- `OSC_CTRL.OSC_FREQ` (rule R23). -/
  oscFreq : Word
  /-- `OSC_CTRL.PLL_REF_DIV` (rule R23). -/
  pllRefDiv : Word
  /-- `OSC_FREQ_DET.REF_CLK_WIN` (rule R24). -/
  refClkWin : Word
  /-- `OSC_FREQ_DET_STATUS.BUSY` (rule R25). -/
  detBusy : Bool
  /-- `OSC_FREQ_DET_STATUS.COUNT` (rule R25). -/
  detCount : Word
  /-- `SCLK_BURST_POLICY.SYS_SRC` (rule R26). -/
  sysSrc : Word
  /-- `SCLK_DIVIDER` (rule R27). -/
  sclkDivider : Divider
  /-- `CCLK_BURST_POLICY.CPU_SRC` (rule R28). -/
  cpuSrc : Word
  /-- `CCLK_DIVIDER` (rule R29). -/
  cclkDivider : Divider
  /-- `CLK_ENB` (rule R30). -/
  clkEnb : PerGate Bool
  /-- `RST_DEV`; the `cpu` entry is the whole-complex line (rule R31). -/
  rstDev : PerGate Bool
  /-- `RST_CMPLX[c]` (rule R32). -/
  rstCmplx : PerCluster Lines
  /-- `RST_CMPLX_STATUS[c].NONCPU_IN_RESET` (rule R33). -/
  nonCpuInReset : PerCluster Bool
  /-- `CPU_SOFTRST_CTRL[c]` (rule R34). -/
  softRst : PerCluster Word
  /-- `PLL_BASE[p]` (rule R35). -/
  pllBase : PerPll PllBase
  /-- `PLL_MISC[p]` (rule R36). -/
  pllMisc : PerPll PllMisc
  /-- The taps of `PLL_OUTA[p]` and `PLL_OUTB[p]`, tap `k` at place `k` (rule R37). -/
  taps : PerPll (List Tap)
  /-- `RESET_VECTOR` (rule R38). -/
  resetVector : Word
  /-- `PWRGATE_TOGGLE.PARTID` (rule R39). -/
  partId : Word
  /-- `PWRGATE_STATUS` (rule R40). -/
  pwrStatus : PerPart Bool
  /-- `CLUSTER_CONTROL.ACTIVE_CLUSTER` (rule R42). -/
  activeCluster : Cluster
  /-- `RAM_REPAIR.REQ` (rule R43). -/
  ramReq : Bool
  /-- `RAM_REPAIR.STS` (rule R43). -/
  ramSts : Bool
  /-- `FUSE.BOND_OUT.PERF_BONDED_OUT`, an input (rule R44). -/
  perfBondedOut : Bool
  /-- `FUSE.BOND_OUT.EFF_BONDED_OUT`, an input (rule R44). -/
  effBondedOut : Bool
  /-- `FUSE.CPU_DISABLE.ALL_CPUS_DISABLED`, an input (rule R45). -/
  cpuDisable : Bool
  /-- `TMR_PTV.EN` (rule R46). -/
  tmrEn : Bool
  /-- `TMR_PTV.PTV` (rule R46). -/
  tmrPtv : Word
  /-- `TMR_STS.EXPIRED` (rule R47). -/
  tmrExpired : Bool
  /-- `TIMERUS_USEC_CFG.USEC_DIVIDEND` (rule R48). -/
  usecDividend : Word
  /-- `TIMERUS_USEC_CFG.USEC_DIVISOR` (rule R48). -/
  usecDivisor : Word
  /-- The boot information record, an input (rule R49). -/
  bir : BootRecord
  /-- `pll_stable[p]` (rule R50). -/
  pllStable : PerPll Bool
  /-- `pg_pending` (rule R51). -/
  pgPending : Option Part
  /-- `clamp[i]` (rule R52). -/
  clamp : PerPart Bool
  /-- `clamp_pending[i]` (rule R52). -/
  clampPending : PerPart Bool
  /-- `tmr_running` (rule R53). -/
  tmrRunning : Bool
  /-- `tmr_value`, in ticks (rule R53). -/
  tmrValue : Nat
  /-- `tmr_settle` (rule R53). -/
  tmrSettle : SettleSet
  /-- `osc_actual`, an input: the frequency of the fitted crystal in kHz, `none` when unsupported (rule R54). -/
  oscActual : Option Nat
  /-- `repair_pending` (rule R55). -/
  repairPending : Bool
  deriving DecidableEq, Repr

end Sys2Proof
end

