-- ==== Sys2Proof/RegMap.lean ====
section
/-! DEFINITION. The register map as data of the configuration: offsets, field layouts and enumeration codes
(rules R16, R102 to R106; log entry 8). The spec's own map is `RegMap.spec` in `Machine/Defaults.lean`. -/

namespace Sys2Proof

/-- The offset of each register in its aperture (rule R103). -/
structure Offsets where
  oscCtrl : Nat
  oscFreqDet : Nat
  oscFreqDetStatus : Nat
  sclkBurstPolicy : Nat
  sclkDivider : Nat
  cclkBurstPolicy : Nat
  cclkDivider : Nat
  clkEnb : Nat
  rstDevSet : Nat
  rstDevClr : Nat
  rstCmplxSet : PerCluster Nat
  rstCmplxClr : PerCluster Nat
  rstCmplxStatus : PerCluster Nat
  cpuSoftrstCtrl : PerCluster Nat
  pllBase : PerPll Nat
  pllMisc : PerPll Nat
  pllOutA : PerPll Nat
  pllOutB : PerPll Nat
  resetVector : Nat
  pwrgateToggle : Nat
  pwrgateStatus : Nat
  removeClampingCmd : Nat
  clusterControl : Nat
  ramRepair : Nat
  bondOut : Nat
  cpuDisable : Nat
  tmrPtv : Nat
  tmrSts : Nat
  timerusUsecCfg : Nat
  sigVersion : Nat
  sigDataVersion : Nat
  birOscFreq : Nat
  bootType : Nat
  flags : Nat
  deriving DecidableEq, Repr

/-- A field of a register: its lowest bit and its width, `[lo + width − 1 : lo]` (rule R104). A flag, which is one bit
whatever the chip, is given by its bit alone. -/
structure FieldPlace where
  lo : Nat
  width : Nat
  deriving DecidableEq, Repr

/-- The fields of a super-clock divider. -/
structure DividerPlaces where
  divisor : FieldPlace
  dividend : FieldPlace
  enb : Nat
  deriving DecidableEq, Repr

/-- The fields of `PLL_BASE[p]`. -/
structure PllPlaces where
  divm : FieldPlace
  divn : FieldPlace
  divp : FieldPlace
  lock : Nat
  enable : Nat
  bypass : Nat
  deriving DecidableEq, Repr

/-- The fields of one tap in its register. -/
structure TapPlaces where
  rstn : Nat
  clken : Nat
  ratio : FieldPlace
  deriving DecidableEq, Repr

/-- The field layouts (rule R104): a place for each field of several bits, the bit of each flag. A field that fills
its 32-bit register has no place. -/
structure Places where
  oscFreq : FieldPlace
  pllRefDiv : FieldPlace
  refClkWin : FieldPlace
  detStart : Nat
  detCount : FieldPlace
  detBusy : Nat
  sysSrc : FieldPlace
  sclkDivider : DividerPlaces
  cpuSrc : FieldPlace
  cclkDivider : DividerPlaces
  lines : PerKind FieldPlace
  nonCpu : Nat
  nonCpuInReset : Nat
  pll : PllPlaces
  setup : FieldPlace
  lockEnable : Nat
  /-- The taps `PLL_OUTA[p]` holds, from tap 0 on (rule R37). -/
  outA : List TapPlaces
  /-- The taps `PLL_OUTB[p]` holds, from the tap after those of `PLL_OUTA[p]` on (rule R37). -/
  outB : List TapPlaces
  partId : FieldPlace
  start : Nat
  activeCluster : Nat
  repairReq : Nat
  repairSts : Nat
  perfBondedOut : Nat
  effBondedOut : Nat
  cpuDisable : Nat
  ptv : FieldPlace
  tmrEn : Nat
  expired : Nat
  usecDivisor : FieldPlace
  usecDividend : FieldPlace
  birOscFreq : FieldPlace
  sdramInit : Nat
  devInit : Nat
  deriving DecidableEq, Repr

/-- The places of all taps, tap `k` at place `k`. -/
def Places.taps (p : Places) : List TapPlaces := p.outA ++ p.outB

/-- The codes of `SYS_SRC` (rule R106). -/
structure SysCodes where
  osc : Word
  pllSys : Word
  /-- The code of each tap of the system PLL, from tap 0 on. -/
  tap : List Word
  deriving DecidableEq, Repr

/-- The codes of `CPU_SRC` (rule R106). -/
structure CpuCodes where
  osc : Word
  pllSys : Word
  pllCpu : Word
  deriving DecidableEq, Repr

/-- The register map of a chip. -/
structure RegMap where
  /-- The size of an aperture (rule R102). -/
  apertureBytes : Nat
  offset : Offsets
  place : Places
  /-- The bit of a gate in `CLK_ENB` and in `RST_DEV` (rule R106). -/
  gate : PerGate Nat
  /-- The identifier of a partition: its `PARTID`, and its bit in the status and clamp registers (rule R106). -/
  partId : PerPart Nat
  sysCode : SysCodes
  cpuCode : CpuCodes
  /-- The value of `ACTIVE_CLUSTER` that means the efficiency cluster (rule R106). -/
  effCode : Bool
  /-- The oscillator code that stands for "unknown", of no member of `OSC_SET` (rules R106, R258). -/
  oscUnknown : Word
  deriving DecidableEq, Repr

end Sys2Proof
end

