-- ==== Sys2Proof/Config.lean ====
section
/-! DEFINITION. The configuration record of rule R8, and the free values. The record is carried by every state as
constant data, so a statement about every state is a statement about every configuration (rules R8, R16, R61). -/

namespace Sys2Proof

/-- One row of `PLL_TABLE[p]` (rules R141, R143). -/
structure PllEntry where
  divm : Word
  divn : Word
  divp : Word
  setup : Word
  lockEnable : Bool
  deriving DecidableEq, Repr

/-- One row of the frequency table (rule R251). -/
structure FreqConst where
  usecDividend : Word
  usecDivisor : Word
  pllRefDiv : Word
  deriving DecidableEq, Repr

/-- The counts that convert to one oscillator frequency (rule R257). -/
structure CountRange where
  lo : Word
  hi : Word
  deriving DecidableEq, Repr

/-- The kinds of reset line in the named reset masks (rule R107): of core 0 in `CORE0_ASSERT_MASK` and in
`CORE0_RELEASE_MASK`, of every other core in `SECONDARY_MASK[c]`. Conflict C3 calls the release mask "one configuration
constant". -/
structure ResetMasks where
  assert : PerKind Bool
  release : PerKind Bool
  secondary : PerKind Bool
  deriving DecidableEq, Repr

/-- The characters the Boot Sequencer posts: one on entering each sequencer state after `Init` (rule R300), and one for
each soft assertion (rules R258, R276, R301, R324). -/
structure Posts where
  clusterSelected : Byte
  clocksRunning : Byte
  powerApplied : Byte
  resetReleased : Byte
  handedOff : Byte
  /-- An oscillator code that is not supported: `'F'`. -/
  frequency : Byte
  /-- The boot record's code disagrees with `OSC_CTRL`: `'B'`. -/
  bootRecord : Byte
  /-- No boot cluster: `'U'`. -/
  unknownCluster : Byte
  deriving DecidableEq, Repr

/-- A supported oscillator: a member of `OSC_SET`, its code, and what the tables hold for it (rules R8, R106,
R252). -/
structure Oscillator where
  /-- The frequency, in kHz. -/
  kHz : Nat
  /-- Its code in `OSC_CTRL` and in the boot information record (rule R106). -/
  code : Word
  /-- Its row of `FREQ_CONST` (rule R251). -/
  freq : FreqConst
  /-- Its row of each `PLL_TABLE[p]` (rule R143). -/
  pll : PerPll PllEntry
  /-- Its row of `FD_RANGE` (rule R257). -/
  range : CountRange
  deriving DecidableEq, Repr

/-- The configuration record of rule R8 and the register map of `spec/30_encoding.md` (rule R16). -/
structure Config where
  chip : Chip
  npll : Nat
  ntaps : PerPll Nat
  /-- `OSC_SET`, with the codes and with the rows of `PLL_TABLE`, `FREQ_CONST` and `FD_RANGE`. -/
  oscSet : List Oscillator
  /-- `OSC_DEFAULT`: the entry used for an unsupported code. -/
  oscDefault : Oscillator
  lockStrategy : PerPll LockStrategy
  lockReliable : PerPll Bool
  checkBypass : PerPll Bool
  bypassClearPhase : PerPll BypassPhase
  pllStabUs : PerPll Nat
  clampSettleUs : Nat
  /-- Whether a zero divider holds a countdown up (rules R247, R281, R321; log entry 17). -/
  zeroDividerStall : ZeroDividerStall
  dualCluster : Bool
  ncores : PerCluster Nat
  ramRepairPresent : Bool
  crossClusterClear : Bool
  mirrorDirection : MirrorDirection
  /-- The reset masks of the procedures (rule R107). -/
  masks : ResetMasks
  /-- The posted characters (rules R276, R300, R324). -/
  posts : Posts
  tmrMax : Nat
  base : PerAperture Word
  sclkDivConst : Word
  cclkDivConst : Word
  effSelectPolarity : EffPolarity
  sysBootSrc : Word
  cpuBootSrc : Word
  tapRatio : PerPll (List Word)
  fdWin : Word
  /-- `RESET_STATE`: the value of every state element after reset (rules R8, R350, R351). -/
  resetState : HwState
  /-- Offsets, field layouts and codes (rules R16, R102 to R106). -/
  map : RegMap
  deriving DecidableEq, Repr

/-- FREE VALUE: the raw draw of the n-th frequency measurement (rule R255; cases U11 and U15). It has no
body, so no proof can know it; `Machine.drawCount` keeps it inside the set the rule names. -/
opaque Config.freeCount : Nat → Word

/-- FREE VALUE: the clamp state drawn when a partition has been powered down (rule R193; case U16). -/
opaque Config.freeClamp : Nat → Bool

end Sys2Proof
end

