-- ==== Sys2Proof/Machine/Defaults.lean ====
section
/-! DEFINITION. The numbers the spec gives by default: its register map, its test profile for the reset state, and the
default column of the configuration record (rules R8, R102 to R106, R143, R152, R251, R257, R352). -/

namespace Sys2Proof

/-- The spec's own map: rules R102 to R106 (log entry 8). -/
def RegMap.spec : RegMap where
  apertureBytes := 0x1000
  offset :=
    { oscCtrl := 0x000, oscFreqDet := 0x004, oscFreqDetStatus := 0x008, sclkBurstPolicy := 0x010, sclkDivider := 0x014,
      cclkBurstPolicy := 0x018, cclkDivider := 0x01C, clkEnb := 0x020, rstDevSet := 0x030, rstDevClr := 0x034,
      rstCmplxSet := { p := 0x040, e := 0x050 }, rstCmplxClr := { p := 0x044, e := 0x054 },
      rstCmplxStatus := { p := 0x048, e := 0x058 }, cpuSoftrstCtrl := { p := 0x04C, e := 0x05C },
      pllBase := { sys := 0x080, cpu := 0x090, usb := 0x0A0 }, pllMisc := { sys := 0x084, cpu := 0x094, usb := 0x0A4 },
      pllOutA := { sys := 0x088, cpu := 0x098, usb := 0x0A8 }, pllOutB := { sys := 0x08C, cpu := 0x09C, usb := 0x0AC },
      resetVector := 0x0F0, pwrgateToggle := 0x000, pwrgateStatus := 0x004, removeClampingCmd := 0x008,
      clusterControl := 0x000, ramRepair := 0x004, bondOut := 0x000, cpuDisable := 0x004, tmrPtv := 0x000,
      tmrSts := 0x004, timerusUsecCfg := 0x010, sigVersion := 0x000, sigDataVersion := 0x004, birOscFreq := 0x008,
      bootType := 0x00C, flags := 0x010 }
  place :=
    { oscFreq := ⟨0, 4⟩, pllRefDiv := ⟨4, 2⟩, refClkWin := ⟨0, 4⟩, detStart := 31, detCount := ⟨0, 16⟩, detBusy := 31,
      sysSrc := ⟨0, 4⟩, sclkDivider := { divisor := ⟨0, 8⟩, dividend := ⟨8, 8⟩, enb := 31 }, cpuSrc := ⟨0, 4⟩,
      cclkDivider := { divisor := ⟨0, 8⟩, dividend := ⟨8, 8⟩, enb := 31 },
      lines := { cpu := ⟨0, 4⟩, dbg := ⟨4, 4⟩, core := ⟨8, 4⟩, wd := ⟨12, 4⟩, cx := ⟨16, 4⟩ }, nonCpu := 24,
      nonCpuInReset := 0,
      pll := { divm := ⟨0, 5⟩, divn := ⟨8, 10⟩, divp := ⟨20, 3⟩, lock := 27, enable := 30, bypass := 31 },
      setup := ⟨0, 16⟩, lockEnable := 18,
      outA := [{ rstn := 0, clken := 1, ratio := ⟨8, 8⟩ }, { rstn := 16, clken := 17, ratio := ⟨24, 8⟩ }],
      outB := [{ rstn := 0, clken := 1, ratio := ⟨8, 8⟩ }, { rstn := 16, clken := 17, ratio := ⟨24, 8⟩ }],
      partId := ⟨0, 5⟩, start := 8, activeCluster := 0, repairReq := 0, repairSts := 1, perfBondedOut := 0,
      effBondedOut := 1, cpuDisable := 0, ptv := ⟨0, 29⟩, tmrEn := 31, expired := 0, usecDivisor := ⟨0, 8⟩,
      usecDividend := ⟨8, 8⟩, birOscFreq := ⟨0, 4⟩, sdramInit := 0, devInit := 1 }
  gate := { cpu := 0, timer := 1, gpio := 2, memc := 3, dma0 := 4, dma1 := 5 }
  partId := { rail := 0, nonCpuP := 1, cpu0P := 2, nonCpuE := 3, cpuE := 4 }
  sysCode := { osc := 0, pllSys := 1, tap := [2, 3, 4, 5] }
  cpuCode := { osc := 0, pllSys := 1, pllCpu := 2 }
  effCode := true
  oscUnknown := 15

/-- The profile `COLD0` of rule R352: "the spec's own choice", which no source gives (log entry 1). -/
def HwState.cold0 : HwState where
  oscFreq := 0
  pllRefDiv := 0
  refClkWin := 0
  detBusy := false
  detCount := 0
  sysSrc := 0
  sclkDivider := { enb := false, dividend := 0, divisor := 0 }
  cpuSrc := 0
  cclkDivider := { enb := false, dividend := 0, divisor := 0 }
  clkEnb := .ofFn fun g => g == .timer
  rstDev := .ofFn fun g => g != .timer
  rstCmplx :=
    { p := { core := .ofFn fun _ => 0xF, nonCpu := true }, e := { core := .ofFn fun _ => 0x1, nonCpu := true } }
  nonCpuInReset := .ofFn fun _ => true
  softRst := .ofFn fun _ => 0
  pllBase := .ofFn fun _ => { divm := 0, divn := 0, divp := 0, enable := false, bypass := false }
  pllMisc := .ofFn fun _ => { setup := 0, lockEnable := false }
  taps := { sys := [.off, .off, .off, .off], cpu := [], usb := [] }
  resetVector := 0
  partId := 0
  pwrStatus := .ofFn fun _ => false
  activeCluster := .p
  ramReq := false
  ramSts := false
  perfBondedOut := false
  effBondedOut := false
  cpuDisable := false
  tmrEn := false
  tmrPtv := 0
  tmrExpired := false
  usecDividend := 0
  usecDivisor := 0
  bir :=
    { sigVersion := 0, sigDataVersion := 0, oscFreq := 0, bootType := 0, sdramInit := false, devInit := false }
  pllStable := .ofFn fun _ => false
  pgPending := none
  clamp := .ofFn fun _ => true
  clampPending := .ofFn fun _ => false
  tmrRunning := false
  tmrValue := 0
  tmrSettle := .empty
  oscActual := some 12000
  repairPending := false

/-- An entry of the default `PLL_TABLE`: `SETUP` is 0x0008 and `LOCK_ENABLE` 1 in every entry (rule R143). -/
def pllRow (m n p : Nat) : PllEntry :=
  { divm := BitVec.ofNat 32 m, divn := BitVec.ofNat 32 n, divp := BitVec.ofNat 32 p,
    setup := 0x0008, lockEnable := true }

/-- A row of the default frequency table, reference-divider selector 0 (rule R251). -/
def freqRow (dividend divisor : Nat) : FreqConst :=
  { usecDividend := BitVec.ofNat 32 dividend, usecDivisor := BitVec.ofNat 32 divisor, pllRefDiv := 0 }

/-- A default measured range: the nominal count plus or minus 3 (rule R257). -/
def countRow (nominal : Nat) : CountRange :=
  { lo := BitVec.ofNat 32 (nominal - 3), hi := BitVec.ofNat 32 (nominal + 3) }

/-- The default `OSC_DEFAULT`: code 0, 12 MHz (rule R8). -/
def osc12MHz : Oscillator where
  kHz := 12000
  code := 0
  freq := freqRow 1 12
  pll := { sys := pllRow 12 432 1, cpu := pllRow 12 600 0, usb := pllRow 12 960 0 }
  range := countRow 732

/-- The default `OSC_SET` with the codes and the default tables (rules R8, R106, R143, R251, R257). -/
def oscSetSpec : List Oscillator :=
  [osc12MHz,
    { kHz := 13000, code := 1, freq := freqRow 1 13, range := countRow 793,
      pll := { sys := pllRow 13 432 1, cpu := pllRow 13 600 0, usb := pllRow 13 960 0 } },
    { kHz := 16800, code := 2, freq := freqRow 5 84, range := countRow 1025,
      pll := { sys := pllRow 14 360 1, cpu := pllRow 14 500 0, usb := pllRow 7 400 0 } },
    { kHz := 19200, code := 3, freq := freqRow 5 96, range := countRow 1172,
      pll := { sys := pllRow 16 360 1, cpu := pllRow 16 500 0, usb := pllRow 4 200 0 } },
    { kHz := 26000, code := 4, freq := freqRow 1 26, range := countRow 1587,
      pll := { sys := pllRow 26 432 1, cpu := pllRow 26 600 0, usb := pllRow 26 960 0 } },
    { kHz := 38400, code := 5, freq := freqRow 5 192, range := countRow 2344,
      pll := { sys := pllRow 16 180 1, cpu := pllRow 16 250 0, usb := pllRow 4 100 0 } },
    { kHz := 48000, code := 6, freq := freqRow 1 48, range := countRow 2930,
      pll := { sys := pllRow 12 108 1, cpu := pllRow 12 150 0, usb := pllRow 4 80 0 } }]

/-- The reset masks of rule R107: `CORE0_ASSERT_MASK` and `SECONDARY_MASK[c]` name every kind of line,
`CORE0_RELEASE_MASK` every kind but the watchdog's (conflict C3). -/
def ResetMasks.spec : ResetMasks where
  assert := .ofFn fun _ => true
  release := .ofFn fun k => k != .wd
  secondary := .ofFn fun _ => true

/-- The characters of rules R258, R276, R300 and R301. -/
def Posts.spec : Posts where
  clusterSelected := BitVec.ofNat 8 'a'.toNat
  clocksRunning := BitVec.ofNat 8 'b'.toNat
  powerApplied := BitVec.ofNat 8 'c'.toNat
  resetReleased := BitVec.ofNat 8 'd'.toNat
  handedOff := BitVec.ofNat 8 'e'.toNat
  frequency := BitVec.ofNat 8 'F'.toNat
  bootRecord := BitVec.ofNat 8 'B'.toNat
  unknownCluster := BitVec.ofNat 8 'U'.toNat

/-- The default column of rule R8, with the tables of rules R143, R152, R251 and R257, the bases of rule R102 and the
test profile `COLD0` as `RESET_STATE` (log entries 1, 2). A countdown waits for what it covers, as rules R247 and
R321 have it (log entry 17). -/
def Config.default : Config where
  chip := .t11x
  npll := 3
  ntaps := { sys := 4, cpu := 0, usb := 0 }
  oscSet := oscSetSpec
  oscDefault := osc12MHz
  lockStrategy := { sys := .pollLock, cpu := .pollLock, usb := .fixedDelay }
  lockReliable := { sys := true, cpu := true, usb := true }
  checkBypass := { sys := false, cpu := true, usb := false }
  bypassClearPhase := { sys := .withEnable, cpu := .afterLock, usb := .withEnable }
  pllStabUs := { sys := 300, cpu := 300, usb := 300 }
  clampSettleUs := 10
  zeroDividerStall := .hangs
  dualCluster := true
  ncores := { p := 4, e := 1 }
  ramRepairPresent := false
  crossClusterClear := false
  mirrorDirection := .activeToOther
  masks := .spec
  posts := .spec
  tmrMax := 2 ^ 29 - 1
  base :=
    { car := 0x00010000, flow := 0x00020000, pmc := 0x00030000, fuse := 0x00040000,
      ahb := 0x00050000, tmr := 0x00060000, dbg := 0x00070000, bir := 0x00080000 }
  sclkDivConst := 0x80000000
  cclkDivConst := 0x80000000
  effSelectPolarity := .literal
  sysBootSrc := 1
  cpuBootSrc := 2
  tapRatio := { sys := [4, 4, 2, 2], cpu := [], usb := [] }
  fdWin := 1
  resetState := .cold0
  map := .spec

end Sys2Proof
end

