-- ==== Sys2Proof/Syntax.lean ====
section
/-! DEFINITION. The registers of rule R103, the 92 commands of `spec/opcode_table.json` (one constructor each),
and the statements of the master's assembler (rules R110, R111). -/

namespace Sys2Proof

/-- The 46 registers of rule R103; indexed registers carry their index. -/
inductive Reg where
  | oscCtrl | oscFreqDet | oscFreqDetStatus
  | sclkBurstPolicy | sclkDivider | cclkBurstPolicy | cclkDivider | clkEnb
  | rstDevSet | rstDevClr
  | rstCmplxSet (c : Cluster) | rstCmplxClr (c : Cluster) | rstCmplxStatus (c : Cluster)
  | cpuSoftrstCtrl (c : Cluster)
  | pllBase (p : PllId) | pllMisc (p : PllId) | pllOutA (p : PllId) | pllOutB (p : PllId)
  | resetVector
  | pwrgateToggle | pwrgateStatus | removeClampingCmd
  | clusterControl | ramRepair
  | bondOut | cpuDisable
  | tmrPtv | tmrSts | timerusUsecCfg
  | sigVersion | sigDataVersion | birOscFreq | bootType | flags
  deriving DecidableEq, Repr

/-- The 92 commands of `spec/opcode_table.json` (rules R4, R100, R101, R108): a read of a named register, or a write
of it with its 32-bit `DATA`. -/
inductive Instr where
  | rdOscCtrl
  | wrOscCtrl (data : Word)
  | rdOscFreqDet
  | wrOscFreqDet (data : Word)
  | rdOscFreqDetStatus
  | wrOscFreqDetStatus (data : Word)
  | rdSclkBurstPolicy
  | wrSclkBurstPolicy (data : Word)
  | rdSclkDivider
  | wrSclkDivider (data : Word)
  | rdCclkBurstPolicy
  | wrCclkBurstPolicy (data : Word)
  | rdCclkDivider
  | wrCclkDivider (data : Word)
  | rdClkEnb
  | wrClkEnb (data : Word)
  | rdRstDevSet
  | wrRstDevSet (data : Word)
  | rdRstDevClr
  | wrRstDevClr (data : Word)
  | rdRstCmplxSetP
  | wrRstCmplxSetP (data : Word)
  | rdRstCmplxClrP
  | wrRstCmplxClrP (data : Word)
  | rdRstCmplxStatusP
  | wrRstCmplxStatusP (data : Word)
  | rdCpuSoftrstCtrlP
  | wrCpuSoftrstCtrlP (data : Word)
  | rdRstCmplxSetE
  | wrRstCmplxSetE (data : Word)
  | rdRstCmplxClrE
  | wrRstCmplxClrE (data : Word)
  | rdRstCmplxStatusE
  | wrRstCmplxStatusE (data : Word)
  | rdCpuSoftrstCtrlE
  | wrCpuSoftrstCtrlE (data : Word)
  | rdPllBaseSys
  | wrPllBaseSys (data : Word)
  | rdPllMiscSys
  | wrPllMiscSys (data : Word)
  | rdPllOutaSys
  | wrPllOutaSys (data : Word)
  | rdPllOutbSys
  | wrPllOutbSys (data : Word)
  | rdPllBaseCpu
  | wrPllBaseCpu (data : Word)
  | rdPllMiscCpu
  | wrPllMiscCpu (data : Word)
  | rdPllOutaCpu
  | wrPllOutaCpu (data : Word)
  | rdPllOutbCpu
  | wrPllOutbCpu (data : Word)
  | rdPllBaseUsb
  | wrPllBaseUsb (data : Word)
  | rdPllMiscUsb
  | wrPllMiscUsb (data : Word)
  | rdPllOutaUsb
  | wrPllOutaUsb (data : Word)
  | rdPllOutbUsb
  | wrPllOutbUsb (data : Word)
  | rdResetVector
  | wrResetVector (data : Word)
  | rdPwrgateToggle
  | wrPwrgateToggle (data : Word)
  | rdPwrgateStatus
  | wrPwrgateStatus (data : Word)
  | rdRemoveClampingCmd
  | wrRemoveClampingCmd (data : Word)
  | rdClusterControl
  | wrClusterControl (data : Word)
  | rdRamRepair
  | wrRamRepair (data : Word)
  | rdBondOut
  | wrBondOut (data : Word)
  | rdCpuDisable
  | wrCpuDisable (data : Word)
  | rdTmrPtv
  | wrTmrPtv (data : Word)
  | rdTmrSts
  | wrTmrSts (data : Word)
  | rdTimerusUsecCfg
  | wrTimerusUsecCfg (data : Word)
  | rdSigVersion
  | wrSigVersion (data : Word)
  | rdSigDataVersion
  | wrSigDataVersion (data : Word)
  | rdOscFreq
  | wrOscFreq (data : Word)
  | rdBootType
  | wrBootType (data : Word)
  | rdFlags
  | wrFlags (data : Word)
  deriving DecidableEq, Repr

/-- The register a command names (rule R103). -/
def Instr.reg : Instr → Reg
  | .rdOscCtrl => .oscCtrl
  | .wrOscCtrl _ => .oscCtrl
  | .rdOscFreqDet => .oscFreqDet
  | .wrOscFreqDet _ => .oscFreqDet
  | .rdOscFreqDetStatus => .oscFreqDetStatus
  | .wrOscFreqDetStatus _ => .oscFreqDetStatus
  | .rdSclkBurstPolicy => .sclkBurstPolicy
  | .wrSclkBurstPolicy _ => .sclkBurstPolicy
  | .rdSclkDivider => .sclkDivider
  | .wrSclkDivider _ => .sclkDivider
  | .rdCclkBurstPolicy => .cclkBurstPolicy
  | .wrCclkBurstPolicy _ => .cclkBurstPolicy
  | .rdCclkDivider => .cclkDivider
  | .wrCclkDivider _ => .cclkDivider
  | .rdClkEnb => .clkEnb
  | .wrClkEnb _ => .clkEnb
  | .rdRstDevSet => .rstDevSet
  | .wrRstDevSet _ => .rstDevSet
  | .rdRstDevClr => .rstDevClr
  | .wrRstDevClr _ => .rstDevClr
  | .rdRstCmplxSetP => .rstCmplxSet .p
  | .wrRstCmplxSetP _ => .rstCmplxSet .p
  | .rdRstCmplxClrP => .rstCmplxClr .p
  | .wrRstCmplxClrP _ => .rstCmplxClr .p
  | .rdRstCmplxStatusP => .rstCmplxStatus .p
  | .wrRstCmplxStatusP _ => .rstCmplxStatus .p
  | .rdCpuSoftrstCtrlP => .cpuSoftrstCtrl .p
  | .wrCpuSoftrstCtrlP _ => .cpuSoftrstCtrl .p
  | .rdRstCmplxSetE => .rstCmplxSet .e
  | .wrRstCmplxSetE _ => .rstCmplxSet .e
  | .rdRstCmplxClrE => .rstCmplxClr .e
  | .wrRstCmplxClrE _ => .rstCmplxClr .e
  | .rdRstCmplxStatusE => .rstCmplxStatus .e
  | .wrRstCmplxStatusE _ => .rstCmplxStatus .e
  | .rdCpuSoftrstCtrlE => .cpuSoftrstCtrl .e
  | .wrCpuSoftrstCtrlE _ => .cpuSoftrstCtrl .e
  | .rdPllBaseSys => .pllBase .sys
  | .wrPllBaseSys _ => .pllBase .sys
  | .rdPllMiscSys => .pllMisc .sys
  | .wrPllMiscSys _ => .pllMisc .sys
  | .rdPllOutaSys => .pllOutA .sys
  | .wrPllOutaSys _ => .pllOutA .sys
  | .rdPllOutbSys => .pllOutB .sys
  | .wrPllOutbSys _ => .pllOutB .sys
  | .rdPllBaseCpu => .pllBase .cpu
  | .wrPllBaseCpu _ => .pllBase .cpu
  | .rdPllMiscCpu => .pllMisc .cpu
  | .wrPllMiscCpu _ => .pllMisc .cpu
  | .rdPllOutaCpu => .pllOutA .cpu
  | .wrPllOutaCpu _ => .pllOutA .cpu
  | .rdPllOutbCpu => .pllOutB .cpu
  | .wrPllOutbCpu _ => .pllOutB .cpu
  | .rdPllBaseUsb => .pllBase .usb
  | .wrPllBaseUsb _ => .pllBase .usb
  | .rdPllMiscUsb => .pllMisc .usb
  | .wrPllMiscUsb _ => .pllMisc .usb
  | .rdPllOutaUsb => .pllOutA .usb
  | .wrPllOutaUsb _ => .pllOutA .usb
  | .rdPllOutbUsb => .pllOutB .usb
  | .wrPllOutbUsb _ => .pllOutB .usb
  | .rdResetVector => .resetVector
  | .wrResetVector _ => .resetVector
  | .rdPwrgateToggle => .pwrgateToggle
  | .wrPwrgateToggle _ => .pwrgateToggle
  | .rdPwrgateStatus => .pwrgateStatus
  | .wrPwrgateStatus _ => .pwrgateStatus
  | .rdRemoveClampingCmd => .removeClampingCmd
  | .wrRemoveClampingCmd _ => .removeClampingCmd
  | .rdClusterControl => .clusterControl
  | .wrClusterControl _ => .clusterControl
  | .rdRamRepair => .ramRepair
  | .wrRamRepair _ => .ramRepair
  | .rdBondOut => .bondOut
  | .wrBondOut _ => .bondOut
  | .rdCpuDisable => .cpuDisable
  | .wrCpuDisable _ => .cpuDisable
  | .rdTmrPtv => .tmrPtv
  | .wrTmrPtv _ => .tmrPtv
  | .rdTmrSts => .tmrSts
  | .wrTmrSts _ => .tmrSts
  | .rdTimerusUsecCfg => .timerusUsecCfg
  | .wrTimerusUsecCfg _ => .timerusUsecCfg
  | .rdSigVersion => .sigVersion
  | .wrSigVersion _ => .sigVersion
  | .rdSigDataVersion => .sigDataVersion
  | .wrSigDataVersion _ => .sigDataVersion
  | .rdOscFreq => .birOscFreq
  | .wrOscFreq _ => .birOscFreq
  | .rdBootType => .bootType
  | .wrBootType _ => .bootType
  | .rdFlags => .flags
  | .wrFlags _ => .flags

/-- The `W` bit of a command's transaction word (rule R100). -/
def Instr.isWrite : Instr → Bool
  | .rdOscCtrl => false
  | .wrOscCtrl _ => true
  | .rdOscFreqDet => false
  | .wrOscFreqDet _ => true
  | .rdOscFreqDetStatus => false
  | .wrOscFreqDetStatus _ => true
  | .rdSclkBurstPolicy => false
  | .wrSclkBurstPolicy _ => true
  | .rdSclkDivider => false
  | .wrSclkDivider _ => true
  | .rdCclkBurstPolicy => false
  | .wrCclkBurstPolicy _ => true
  | .rdCclkDivider => false
  | .wrCclkDivider _ => true
  | .rdClkEnb => false
  | .wrClkEnb _ => true
  | .rdRstDevSet => false
  | .wrRstDevSet _ => true
  | .rdRstDevClr => false
  | .wrRstDevClr _ => true
  | .rdRstCmplxSetP => false
  | .wrRstCmplxSetP _ => true
  | .rdRstCmplxClrP => false
  | .wrRstCmplxClrP _ => true
  | .rdRstCmplxStatusP => false
  | .wrRstCmplxStatusP _ => true
  | .rdCpuSoftrstCtrlP => false
  | .wrCpuSoftrstCtrlP _ => true
  | .rdRstCmplxSetE => false
  | .wrRstCmplxSetE _ => true
  | .rdRstCmplxClrE => false
  | .wrRstCmplxClrE _ => true
  | .rdRstCmplxStatusE => false
  | .wrRstCmplxStatusE _ => true
  | .rdCpuSoftrstCtrlE => false
  | .wrCpuSoftrstCtrlE _ => true
  | .rdPllBaseSys => false
  | .wrPllBaseSys _ => true
  | .rdPllMiscSys => false
  | .wrPllMiscSys _ => true
  | .rdPllOutaSys => false
  | .wrPllOutaSys _ => true
  | .rdPllOutbSys => false
  | .wrPllOutbSys _ => true
  | .rdPllBaseCpu => false
  | .wrPllBaseCpu _ => true
  | .rdPllMiscCpu => false
  | .wrPllMiscCpu _ => true
  | .rdPllOutaCpu => false
  | .wrPllOutaCpu _ => true
  | .rdPllOutbCpu => false
  | .wrPllOutbCpu _ => true
  | .rdPllBaseUsb => false
  | .wrPllBaseUsb _ => true
  | .rdPllMiscUsb => false
  | .wrPllMiscUsb _ => true
  | .rdPllOutaUsb => false
  | .wrPllOutaUsb _ => true
  | .rdPllOutbUsb => false
  | .wrPllOutbUsb _ => true
  | .rdResetVector => false
  | .wrResetVector _ => true
  | .rdPwrgateToggle => false
  | .wrPwrgateToggle _ => true
  | .rdPwrgateStatus => false
  | .wrPwrgateStatus _ => true
  | .rdRemoveClampingCmd => false
  | .wrRemoveClampingCmd _ => true
  | .rdClusterControl => false
  | .wrClusterControl _ => true
  | .rdRamRepair => false
  | .wrRamRepair _ => true
  | .rdBondOut => false
  | .wrBondOut _ => true
  | .rdCpuDisable => false
  | .wrCpuDisable _ => true
  | .rdTmrPtv => false
  | .wrTmrPtv _ => true
  | .rdTmrSts => false
  | .wrTmrSts _ => true
  | .rdTimerusUsecCfg => false
  | .wrTimerusUsecCfg _ => true
  | .rdSigVersion => false
  | .wrSigVersion _ => true
  | .rdSigDataVersion => false
  | .wrSigDataVersion _ => true
  | .rdOscFreq => false
  | .wrOscFreq _ => true
  | .rdBootType => false
  | .wrBootType _ => true
  | .rdFlags => false
  | .wrFlags _ => true

/-- The `DATA` of a command's transaction word: 0 in a read (rule R100). -/
def Instr.data : Instr → Word
  | .rdOscCtrl => 0
  | .wrOscCtrl d => d
  | .rdOscFreqDet => 0
  | .wrOscFreqDet d => d
  | .rdOscFreqDetStatus => 0
  | .wrOscFreqDetStatus d => d
  | .rdSclkBurstPolicy => 0
  | .wrSclkBurstPolicy d => d
  | .rdSclkDivider => 0
  | .wrSclkDivider d => d
  | .rdCclkBurstPolicy => 0
  | .wrCclkBurstPolicy d => d
  | .rdCclkDivider => 0
  | .wrCclkDivider d => d
  | .rdClkEnb => 0
  | .wrClkEnb d => d
  | .rdRstDevSet => 0
  | .wrRstDevSet d => d
  | .rdRstDevClr => 0
  | .wrRstDevClr d => d
  | .rdRstCmplxSetP => 0
  | .wrRstCmplxSetP d => d
  | .rdRstCmplxClrP => 0
  | .wrRstCmplxClrP d => d
  | .rdRstCmplxStatusP => 0
  | .wrRstCmplxStatusP d => d
  | .rdCpuSoftrstCtrlP => 0
  | .wrCpuSoftrstCtrlP d => d
  | .rdRstCmplxSetE => 0
  | .wrRstCmplxSetE d => d
  | .rdRstCmplxClrE => 0
  | .wrRstCmplxClrE d => d
  | .rdRstCmplxStatusE => 0
  | .wrRstCmplxStatusE d => d
  | .rdCpuSoftrstCtrlE => 0
  | .wrCpuSoftrstCtrlE d => d
  | .rdPllBaseSys => 0
  | .wrPllBaseSys d => d
  | .rdPllMiscSys => 0
  | .wrPllMiscSys d => d
  | .rdPllOutaSys => 0
  | .wrPllOutaSys d => d
  | .rdPllOutbSys => 0
  | .wrPllOutbSys d => d
  | .rdPllBaseCpu => 0
  | .wrPllBaseCpu d => d
  | .rdPllMiscCpu => 0
  | .wrPllMiscCpu d => d
  | .rdPllOutaCpu => 0
  | .wrPllOutaCpu d => d
  | .rdPllOutbCpu => 0
  | .wrPllOutbCpu d => d
  | .rdPllBaseUsb => 0
  | .wrPllBaseUsb d => d
  | .rdPllMiscUsb => 0
  | .wrPllMiscUsb d => d
  | .rdPllOutaUsb => 0
  | .wrPllOutaUsb d => d
  | .rdPllOutbUsb => 0
  | .wrPllOutbUsb d => d
  | .rdResetVector => 0
  | .wrResetVector d => d
  | .rdPwrgateToggle => 0
  | .wrPwrgateToggle d => d
  | .rdPwrgateStatus => 0
  | .wrPwrgateStatus d => d
  | .rdRemoveClampingCmd => 0
  | .wrRemoveClampingCmd d => d
  | .rdClusterControl => 0
  | .wrClusterControl d => d
  | .rdRamRepair => 0
  | .wrRamRepair d => d
  | .rdBondOut => 0
  | .wrBondOut d => d
  | .rdCpuDisable => 0
  | .wrCpuDisable d => d
  | .rdTmrPtv => 0
  | .wrTmrPtv d => d
  | .rdTmrSts => 0
  | .wrTmrSts d => d
  | .rdTimerusUsecCfg => 0
  | .wrTimerusUsecCfg d => d
  | .rdSigVersion => 0
  | .wrSigVersion d => d
  | .rdSigDataVersion => 0
  | .wrSigDataVersion d => d
  | .rdOscFreq => 0
  | .wrOscFreq d => d
  | .rdBootType => 0
  | .wrBootType d => d
  | .rdFlags => 0
  | .wrFlags d => d

/-- The read command of a register: `RD_<register>` (rules R103, R108). -/
def Instr.rd : Reg → Instr
  | .oscCtrl => .rdOscCtrl
  | .oscFreqDet => .rdOscFreqDet
  | .oscFreqDetStatus => .rdOscFreqDetStatus
  | .sclkBurstPolicy => .rdSclkBurstPolicy
  | .sclkDivider => .rdSclkDivider
  | .cclkBurstPolicy => .rdCclkBurstPolicy
  | .cclkDivider => .rdCclkDivider
  | .clkEnb => .rdClkEnb
  | .rstDevSet => .rdRstDevSet
  | .rstDevClr => .rdRstDevClr
  | .rstCmplxSet .p => .rdRstCmplxSetP
  | .rstCmplxClr .p => .rdRstCmplxClrP
  | .rstCmplxStatus .p => .rdRstCmplxStatusP
  | .cpuSoftrstCtrl .p => .rdCpuSoftrstCtrlP
  | .rstCmplxSet .e => .rdRstCmplxSetE
  | .rstCmplxClr .e => .rdRstCmplxClrE
  | .rstCmplxStatus .e => .rdRstCmplxStatusE
  | .cpuSoftrstCtrl .e => .rdCpuSoftrstCtrlE
  | .pllBase .sys => .rdPllBaseSys
  | .pllMisc .sys => .rdPllMiscSys
  | .pllOutA .sys => .rdPllOutaSys
  | .pllOutB .sys => .rdPllOutbSys
  | .pllBase .cpu => .rdPllBaseCpu
  | .pllMisc .cpu => .rdPllMiscCpu
  | .pllOutA .cpu => .rdPllOutaCpu
  | .pllOutB .cpu => .rdPllOutbCpu
  | .pllBase .usb => .rdPllBaseUsb
  | .pllMisc .usb => .rdPllMiscUsb
  | .pllOutA .usb => .rdPllOutaUsb
  | .pllOutB .usb => .rdPllOutbUsb
  | .resetVector => .rdResetVector
  | .pwrgateToggle => .rdPwrgateToggle
  | .pwrgateStatus => .rdPwrgateStatus
  | .removeClampingCmd => .rdRemoveClampingCmd
  | .clusterControl => .rdClusterControl
  | .ramRepair => .rdRamRepair
  | .bondOut => .rdBondOut
  | .cpuDisable => .rdCpuDisable
  | .tmrPtv => .rdTmrPtv
  | .tmrSts => .rdTmrSts
  | .timerusUsecCfg => .rdTimerusUsecCfg
  | .sigVersion => .rdSigVersion
  | .sigDataVersion => .rdSigDataVersion
  | .birOscFreq => .rdOscFreq
  | .bootType => .rdBootType
  | .flags => .rdFlags

/-- The write command of a register: `WR_<register>` (rules R103, R108). -/
def Instr.wr (d : Word) : Reg → Instr
  | .oscCtrl => .wrOscCtrl d
  | .oscFreqDet => .wrOscFreqDet d
  | .oscFreqDetStatus => .wrOscFreqDetStatus d
  | .sclkBurstPolicy => .wrSclkBurstPolicy d
  | .sclkDivider => .wrSclkDivider d
  | .cclkBurstPolicy => .wrCclkBurstPolicy d
  | .cclkDivider => .wrCclkDivider d
  | .clkEnb => .wrClkEnb d
  | .rstDevSet => .wrRstDevSet d
  | .rstDevClr => .wrRstDevClr d
  | .rstCmplxSet .p => .wrRstCmplxSetP d
  | .rstCmplxClr .p => .wrRstCmplxClrP d
  | .rstCmplxStatus .p => .wrRstCmplxStatusP d
  | .cpuSoftrstCtrl .p => .wrCpuSoftrstCtrlP d
  | .rstCmplxSet .e => .wrRstCmplxSetE d
  | .rstCmplxClr .e => .wrRstCmplxClrE d
  | .rstCmplxStatus .e => .wrRstCmplxStatusE d
  | .cpuSoftrstCtrl .e => .wrCpuSoftrstCtrlE d
  | .pllBase .sys => .wrPllBaseSys d
  | .pllMisc .sys => .wrPllMiscSys d
  | .pllOutA .sys => .wrPllOutaSys d
  | .pllOutB .sys => .wrPllOutbSys d
  | .pllBase .cpu => .wrPllBaseCpu d
  | .pllMisc .cpu => .wrPllMiscCpu d
  | .pllOutA .cpu => .wrPllOutaCpu d
  | .pllOutB .cpu => .wrPllOutbCpu d
  | .pllBase .usb => .wrPllBaseUsb d
  | .pllMisc .usb => .wrPllMiscUsb d
  | .pllOutA .usb => .wrPllOutaUsb d
  | .pllOutB .usb => .wrPllOutbUsb d
  | .resetVector => .wrResetVector d
  | .pwrgateToggle => .wrPwrgateToggle d
  | .pwrgateStatus => .wrPwrgateStatus d
  | .removeClampingCmd => .wrRemoveClampingCmd d
  | .clusterControl => .wrClusterControl d
  | .ramRepair => .wrRamRepair d
  | .bondOut => .wrBondOut d
  | .cpuDisable => .wrCpuDisable d
  | .tmrPtv => .wrTmrPtv d
  | .tmrSts => .wrTmrSts d
  | .timerusUsecCfg => .wrTimerusUsecCfg d
  | .sigVersion => .wrSigVersion d
  | .sigDataVersion => .wrSigDataVersion d
  | .birOscFreq => .wrOscFreq d
  | .bootType => .wrBootType d
  | .flags => .wrFlags d

/-- The command a transaction with these parts names (rule R108, step 4). -/
def Instr.ofParts (write : Bool) (r : Reg) (d : Word) : Instr :=
  if write then .wr d r else .rd r

/-- The states of the Boot Sequencer, in order (rules R21, R300). -/
inductive SeqState where
  | init | clusterSelected | clocksRunning | powerApplied | resetReleased | handedOff
  deriving DecidableEq, Repr

/-- The place of a sequencer state in the list of rule R21. -/
def SeqState.rank : SeqState → Nat
  | .init => 0
  | .clusterSelected => 1
  | .clocksRunning => 2
  | .powerApplied => 3
  | .resetReleased => 4
  | .handedOff => 5

/-- The next state in the list; the last one has none and stays (rules R21, R297). -/
def SeqState.succ : SeqState → SeqState
  | .init => .clusterSelected
  | .clusterSelected => .clocksRunning
  | .clocksRunning => .powerApplied
  | .powerApplied => .resetReleased
  | .resetReleased => .handedOff
  | .handedOff => .handedOff

/-- Write data of the assembler (rule R110): a literal, or an expression over the scratch variable `v`; and the
words a procedure builds from the master's other variables and the configured tables (rules R280, R282, R301,
R302, R305). -/
inductive Expr where
  | lit (w : Word)
  | scratch
  | band (a b : Expr)
  | bor (a b : Expr)
  | bnot (a : Expr)
  /-- `0` for the performance cluster, `1` otherwise (rule R301). -/
  | bootField
  /-- `(k.USEC_DIVIDEND << 8) | k.USEC_DIVISOR` (rule R302). -/
  | usecConst
  /-- `(k.PLL_REF_DIV << 4) | row(oscFreq)` (rule R302). -/
  | oscNote
  /-- `DIV` of `PLL_TABLE[p][row(oscFreq)]` (rule R278). -/
  | pllDiv (p : PllId)
  /-- `(LE << 18) | SETUP` of the same entry (rule R280). -/
  | pllMiscWord (p : PllId)
  /-- The argument of `runBootSequencer` (rule R305). -/
  | vectorArg
  deriving DecidableEq, Repr

/-- Conditions over the master's variables, tested by a short circuit or a soft assertion (rules R297, R324). -/
inductive Cond where
  | always
  /-- `(v & mask) = want`. -/
  | scratchIs (mask want : Word)
  /-- The code in `oscFreq` is supported: `oscFreq ≤ 6` under the default codes (rules R106, R276). -/
  | oscSupported
  /-- `v[3:0] = oscFreq` (rule R258). -/
  | oscAgrees
  | bootIs (c : ClusterId)
  /-- The cluster `queryActiveCluster` answered (rules R294, R295). -/
  | activeIs (c : Cluster)
  /-- `resetVector ≠ 0` (rule R305). -/
  | vectorGiven
  | neg (c : Cond)
  deriving DecidableEq, Repr

/-- Assignments to the master's variables; none is a transaction (rules R258, R275, R287, R288). -/
inductive Assign where
  /-- `b <- v` (rule R287). -/
  | fuseWord
  /-- `bootCluster <-` the answer of `queryBootCluster`, from `b` and `d = v` (rules R287, R301). -/
  | bootCluster
  /-- `oscFreq <- v[3:0]` (rule R258). -/
  | oscFromCtrl
  /-- `oscFreq <-` the code whose range holds `v[15:0]`, or 15 (rule R258). -/
  | oscFromCount
  /-- `c <-` the answer of `queryActiveCluster` (rule R288). -/
  | activeCluster
  deriving DecidableEq, Repr

/-- Statements that take one master step (rules R60, R110, R111). -/
inductive Cmd where
  /-- A transaction word as stored bytes, least significant byte first (rules R100, R101). -/
  | raw (bytes : List Byte)
  /-- `MemRead(addr, width)` or `MemWrite(addr, width, data)` (rules R10, R81). -/
  | access (width : Nat) (write : Bool) (addr data : Word)
  /-- `RD REG`: the result goes to `v`. -/
  | rd (r : Reg)
  /-- `WR REG, value`. -/
  | wr (r : Reg) (value : Expr)
  /-- `POLL REG, mask, want`: one read; the statement stays until the masked value is the wanted one. -/
  | poll (r : Reg) (mask want : Word)
  /-- `POST 'c'`. -/
  | post (ch : Byte)
  /-- `refuse` of rule R301, when the Cluster Selector answered `Unknown`. DESIGN CHOICE (log entry 12): rule R60 names
  only a transaction or a `Post` as a step; here the refusal is a master step of its own, after the `Post` of `'U'`. -/
  | refuseUnknown
  deriving DecidableEq, Repr

/-- Statements that take no step of their own: the master's forward branches, assignments, soft assertions and
changes of `seq` (rules R297, R300, R324). -/
inductive Ctl where
  /-- Skip the next `n` statements when the condition holds. -/
  | skipIf (c : Cond) (n : Nat)
  | assign (a : Assign)
  /-- `ASSERT cond, 'c'`: becomes `POST 'c'` when the condition fails. -/
  | assert (c : Cond) (ch : Byte)
  /-- `seq` moves to the next state of its list. -/
  | advance
  deriving DecidableEq, Repr

/-- A statement of the master's program. -/
inductive Op where
  | cmd (c : Cmd)
  | ctl (c : Ctl)
  deriving DecidableEq, Repr

end Sys2Proof
end

