-- ==== Sys2Proof/Machine/RegisterMap.lean ====
section
/-! DEFINITION. The registers in the map of a configuration: aperture, offset and address, and which of them are present
(rule R103). -/

namespace Sys2Proof

/-- All apertures, in the order of rule R102. -/
def Aperture.all : List Aperture := [.car, .flow, .pmc, .fuse, .ahb, .tmr, .dbg, .bir]

/-- The aperture column of rule R103. -/
def Reg.aperture : Reg → Aperture
  | .pwrgateToggle | .pwrgateStatus | .removeClampingCmd => .pmc
  | .clusterControl | .ramRepair => .flow
  | .bondOut | .cpuDisable => .fuse
  | .tmrPtv | .tmrSts | .timerusUsecCfg => .tmr
  | .sigVersion | .sigDataVersion | .birOscFreq | .bootType | .flags => .bir
  | _ => .car

/-- The offset column of rule R103. -/
def Reg.offset (m : RegMap) : Reg → Nat
  | .oscCtrl => m.offset.oscCtrl
  | .oscFreqDet => m.offset.oscFreqDet
  | .oscFreqDetStatus => m.offset.oscFreqDetStatus
  | .sclkBurstPolicy => m.offset.sclkBurstPolicy
  | .sclkDivider => m.offset.sclkDivider
  | .cclkBurstPolicy => m.offset.cclkBurstPolicy
  | .cclkDivider => m.offset.cclkDivider
  | .clkEnb => m.offset.clkEnb
  | .rstDevSet => m.offset.rstDevSet
  | .rstDevClr => m.offset.rstDevClr
  | .rstCmplxSet c => m.offset.rstCmplxSet.get c
  | .rstCmplxClr c => m.offset.rstCmplxClr.get c
  | .rstCmplxStatus c => m.offset.rstCmplxStatus.get c
  | .cpuSoftrstCtrl c => m.offset.cpuSoftrstCtrl.get c
  | .pllBase p => m.offset.pllBase.get p
  | .pllMisc p => m.offset.pllMisc.get p
  | .pllOutA p => m.offset.pllOutA.get p
  | .pllOutB p => m.offset.pllOutB.get p
  | .resetVector => m.offset.resetVector
  | .pwrgateToggle => m.offset.pwrgateToggle
  | .pwrgateStatus => m.offset.pwrgateStatus
  | .removeClampingCmd => m.offset.removeClampingCmd
  | .clusterControl => m.offset.clusterControl
  | .ramRepair => m.offset.ramRepair
  | .bondOut => m.offset.bondOut
  | .cpuDisable => m.offset.cpuDisable
  | .tmrPtv => m.offset.tmrPtv
  | .tmrSts => m.offset.tmrSts
  | .timerusUsecCfg => m.offset.timerusUsecCfg
  | .sigVersion => m.offset.sigVersion
  | .sigDataVersion => m.offset.sigDataVersion
  | .birOscFreq => m.offset.birOscFreq
  | .bootType => m.offset.bootType
  | .flags => m.offset.flags

/-- The 46 registers of rule R103. -/
def Reg.all : List Reg :=
  [.oscCtrl, .oscFreqDet, .oscFreqDetStatus, .sclkBurstPolicy, .sclkDivider, .cclkBurstPolicy, .cclkDivider,
    .clkEnb, .rstDevSet, .rstDevClr,
    .rstCmplxSet .p, .rstCmplxClr .p, .rstCmplxStatus .p, .cpuSoftrstCtrl .p,
    .rstCmplxSet .e, .rstCmplxClr .e, .rstCmplxStatus .e, .cpuSoftrstCtrl .e,
    .pllBase .sys, .pllMisc .sys, .pllOutA .sys, .pllOutB .sys,
    .pllBase .cpu, .pllMisc .cpu, .pllOutA .cpu, .pllOutB .cpu,
    .pllBase .usb, .pllMisc .usb, .pllOutA .usb, .pllOutB .usb,
    .resetVector, .pwrgateToggle, .pwrgateStatus, .removeClampingCmd, .clusterControl, .ramRepair,
    .bondOut, .cpuDisable, .tmrPtv, .tmrSts, .timerusUsecCfg,
    .sigVersion, .sigDataVersion, .birOscFreq, .bootType, .flags]

/-- "The address of a register is `BASE[aperture] + offset`" (rule R103). -/
def Reg.addr (cfg : Config) (r : Reg) : Word := cfg.base.get r.aperture + BitVec.ofNat 32 (r.offset cfg.map)

/-- PLL `p` exists: the USB PLL exists when `NPLL = 3` (rules R8, R35, R103). -/
def Config.pllPresent (cfg : Config) : PllId → Bool
  | .usb => cfg.npll == 3
  | _ => true

/-- Cluster `c` exists: the efficiency cluster exists when `DUAL_CLUSTER` (rule R103). -/
def Config.clusterPresent (cfg : Config) : Cluster → Bool
  | .p => true
  | .e => cfg.dualCluster

/-- Places numbered from `k` on, below `n`. -/
def numbered (n k : Nat) : List TapPlaces → List (Nat × TapPlaces)
  | [] => []
  | f :: fs => if k < n then (k, f) :: numbered n (k + 1) fs else []

/-- The taps of PLL `p` a tap register holds, in order: each with its number and its places (rule R37). `PLL_OUTB` goes
on where `PLL_OUTA` stops; a place for a tap `k ≥ NTAPS[p]` is reserved. -/
def Reg.taps (cfg : Config) : Reg → List (Nat × TapPlaces)
  | .pllOutA p => numbered (cfg.ntaps.get p) 0 cfg.map.place.outA
  | .pllOutB p => numbered (cfg.ntaps.get p) cfg.map.place.outA.length cfg.map.place.outB
  | _ => []

/-- The "present when" column of rule R103; a tap register is present when it holds a tap the PLL has. -/
def Reg.present (cfg : Config) : Reg → Bool
  | .rstCmplxSet c | .rstCmplxClr c | .rstCmplxStatus c | .cpuSoftrstCtrl c => cfg.clusterPresent c
  | .pllBase p | .pllMisc p => cfg.pllPresent p
  | .pllOutA p => cfg.pllPresent p && !((Reg.pllOutA p).taps cfg).isEmpty
  | .pllOutB p => cfg.pllPresent p && !((Reg.pllOutB p).taps cfg).isEmpty
  | .ramRepair => cfg.ramRepairPresent
  | _ => true

end Sys2Proof
end

