-- ==== Sys2Proof/WellFormed.lean ====
section
/-! DEFINITION. What a configuration, its register map and the state elements must satisfy for the spec's rules to make
sense. -/

namespace Sys2Proof

/-- A command is well formed for a configuration when its register is present (rule R108, step 3). -/
def Instr.wf (cfg : Config) (i : Instr) : Bool := i.reg.present cfg

/-- "2–3 independent PLLs" (rule R8). -/
def Config.pllCountOk (cfg : Config) : Bool := cfg.npll == 2 || cfg.npll == 3

/-- A PLL has no more taps than its two tap registers have places for, a ratio for each, and the system PLL a selector
code for each (rules R8, R37, R106). -/
def Config.tapCountOk (cfg : Config) : Bool :=
  PllId.all.all (fun p =>
    decide (cfg.ntaps.get p ≤ cfg.map.place.outA.length + cfg.map.place.outB.length) &&
      (cfg.tapRatio.get p).length == cfg.ntaps.get p) &&
    decide (cfg.ntaps.sys ≤ cfg.map.sysCode.tap.length)

/-- What the reset masks must name for core 0 to be held before its clock runs (rules R180, R294), to run afterwards
(rules R58, R295; conflict C3: "or core 0 would never leave reset"), and for the other cores to be held (rules R59,
R293). -/
def Config.masksOk (cfg : Config) : Bool :=
  cfg.masks.assert.cpu && cfg.masks.secondary.cpu &&
    LineKind.all.all (fun k => k == .wd || cfg.masks.release.get k)

/-- A cluster has a core 0 and at most as many cores as each kind of reset line has bits (rule R32). -/
def Config.coreCountOk (cfg : Config) : Bool :=
  1 ≤ cfg.ncores.p && 1 ≤ cfg.ncores.e &&
    LineKind.all.all (fun k =>
      decide (cfg.ncores.p ≤ (cfg.map.place.lines.get k).width) &&
        decide (cfg.ncores.e ≤ (cfg.map.place.lines.get k).width))

/-- `TMR_MAX ≥ 2` (rules R296, R372) and a span of `TMR_MAX` ticks fits `PTV` (rule R46). -/
def Config.timerOk (cfg : Config) : Bool := 2 ≤ cfg.tmrMax && decide (cfg.tmrMax < 2 ^ cfg.map.place.ptv.width)

/-- Every settle bound fits one countdown: "a model requires this of its configuration" (rule R247). -/
def Config.boundsOk (cfg : Config) : Bool :=
  cfg.pllStabUs.sys ≤ cfg.tmrMax - 1 && cfg.pllStabUs.cpu ≤ cfg.tmrMax - 1 &&
    cfg.pllStabUs.usb ≤ cfg.tmrMax - 1 && cfg.clampSettleUs ≤ cfg.tmrMax - 1

/-- Two apertures do not overlap (rule R102). -/
def Config.apart (cfg : Config) (a b : Aperture) : Bool :=
  decide ((cfg.base.get a).toNat + cfg.map.apertureBytes ≤ (cfg.base.get b).toNat) ||
    decide ((cfg.base.get b).toNat + cfg.map.apertureBytes ≤ (cfg.base.get a).toNat)

/-- The bases are word aligned, every aperture lies in the 32-bit space, and no two overlap (rules R62, R80,
R102). -/
def Config.basesOk (cfg : Config) : Bool :=
  Aperture.all.all (fun a =>
    (cfg.base.get a).toNat % 4 == 0 && decide ((cfg.base.get a).toNat + cfg.map.apertureBytes ≤ 2 ^ 32) &&
      Aperture.all.all (fun b => a == b || cfg.apart a b))

/-- A value fits a field: "each `value_f` must fit" (rule R105). -/
def FieldPlace.holds (f : FieldPlace) (x : Word) : Bool := decide (x.toNat < 2 ^ f.width)

/-- A count lies in a measured range. -/
def CountRange.holds (r : CountRange) (n : Word) : Bool := r.lo ≤ n && n ≤ r.hi

/-- Two measured ranges share no count. -/
def CountRange.apart (r s : CountRange) : Bool := r.hi < s.lo || s.hi < r.lo

/-- The oscillators have different frequencies and different codes, which fit the two fields that hold a code; the
"unknown" code is none of theirs; and `OSC_DEFAULT` is one of them (rules R8, R106, R252, R276). -/
def Config.oscSetOk (cfg : Config) : Bool :=
  decide (cfg.oscSet.map (·.kHz)).Nodup && decide (cfg.oscSet.map (·.code)).Nodup &&
    cfg.oscSet.all (fun x => cfg.map.place.oscFreq.holds x.code && cfg.map.place.birOscFreq.holds x.code &&
      x.code != cfg.map.oscUnknown) &&
    cfg.oscSet.contains cfg.oscDefault

/-- The measured ranges are not empty, hold counts only, and are pairwise disjoint (rule R257). -/
def Config.rangesOk (cfg : Config) : Bool :=
  cfg.oscSet.all (fun x => decide (x.range.lo ≤ x.range.hi) && cfg.map.place.detCount.holds x.range.hi) &&
    decide (cfg.oscSet.Pairwise (fun x y => x.range.apart y.range = true))

/-- The counts just above each range, and 0: one of them lies in no range when some count does. -/
def Config.outsideCandidates (cfg : Config) : List Word := 0 :: cfg.oscSet.map (fun x => x.range.hi + 1)

/-- A value of `COUNT` that lies in no measured range. -/
def Config.outside (cfg : Config) (n : Word) : Bool :=
  cfg.map.place.detCount.holds n && cfg.oscSet.all (fun x => !x.range.holds n)

/-- Some count lies in no range, so the detector has a count to return for an unsupported crystal (rule R255). -/
def Config.outsideOk (cfg : Config) : Bool := cfg.outsideCandidates.any cfg.outside

/-- A table entry fits the fields it is written to (rules R105, R141). -/
def PllEntry.fits (m : RegMap) (e : PllEntry) : Bool :=
  m.place.pll.divm.holds e.divm && m.place.pll.divn.holds e.divn && m.place.pll.divp.holds e.divp &&
    m.place.setup.holds e.setup

/-- A row of the frequency table fits the fields it is written to (rules R105, R251). -/
def FreqConst.fits (m : RegMap) (x : FreqConst) : Bool :=
  m.place.usecDividend.holds x.usecDividend && m.place.usecDivisor.holds x.usecDivisor &&
    m.place.pllRefDiv.holds x.pllRefDiv

/-- Every number the Boot Sequencer writes fits its field (rules R105, R110). -/
def Config.valuesFit (cfg : Config) : Bool :=
  cfg.oscSet.all (fun x => x.freq.fits cfg.map && PllId.all.all (fun p => (x.pll.get p).fits cfg.map)) &&
    PllId.all.all (fun p =>
      (cfg.map.place.taps.zip (cfg.tapRatio.get p)).all (fun x => x.1.ratio.holds x.2)) &&
    cfg.map.place.refClkWin.holds cfg.fdWin && cfg.map.place.sysSrc.holds cfg.sysBootSrc &&
    cfg.map.place.cpuSrc.holds cfg.cpuBootSrc

/-- Every register stands at a word-aligned offset of its own inside its aperture (rules R83, R103). -/
def RegMap.offsetsOk (m : RegMap) : Bool :=
  Reg.all.all (fun r =>
    r.offset m % 4 == 0 && decide (r.offset m < m.apertureBytes) &&
      Reg.all.all (fun q => q == r || q.aperture != r.aperture || q.offset m != r.offset m))

/-- Two fields share no bit. -/
def FieldPlace.apart (f g : FieldPlace) : Bool := decide (f.lo + f.width ≤ g.lo) || decide (g.lo + g.width ≤ f.lo)

/-- The fields of one register lie in its 32 bits, share none and are not empty. -/
def fieldsOk (fs : List FieldPlace) : Bool :=
  fs.all (fun f => decide (0 < f.width) && decide (f.lo + f.width ≤ 32)) &&
    decide (fs.Pairwise (fun f g => f.apart g = true))

/-- The fields of a super-clock divider. -/
def DividerPlaces.fields (d : DividerPlaces) : List FieldPlace := [d.divisor, d.dividend, ⟨d.enb, 1⟩]

/-- The fields of a tap. -/
def TapPlaces.fields (t : TapPlaces) : List FieldPlace := [⟨t.rstn, 1⟩, ⟨t.clken, 1⟩, t.ratio]

/-- The fields of each register that no single field fills (rules R23 to R49, R104). -/
def RegMap.layouts (m : RegMap) : List (List FieldPlace) :=
  let p := m.place
  [[p.oscFreq, p.pllRefDiv], [p.refClkWin, ⟨p.detStart, 1⟩], [p.detCount, ⟨p.detBusy, 1⟩],
    [p.sysSrc], p.sclkDivider.fields, [p.cpuSrc], p.cclkDivider.fields,
    Gate.all.map (fun g => ⟨m.gate.get g, 1⟩),
    ⟨p.nonCpu, 1⟩ :: LineKind.all.map p.lines.get, [⟨p.nonCpuInReset, 1⟩],
    [p.pll.divm, p.pll.divn, p.pll.divp, ⟨p.pll.lock, 1⟩, ⟨p.pll.enable, 1⟩, ⟨p.pll.bypass, 1⟩],
    [p.setup, ⟨p.lockEnable, 1⟩], p.outA.flatMap TapPlaces.fields, p.outB.flatMap TapPlaces.fields,
    [p.partId, ⟨p.start, 1⟩], Part.all.map (fun i => ⟨m.partId.get i, 1⟩), [⟨p.activeCluster, 1⟩],
    [⟨p.repairReq, 1⟩, ⟨p.repairSts, 1⟩], [⟨p.perfBondedOut, 1⟩, ⟨p.effBondedOut, 1⟩], [⟨p.cpuDisable, 1⟩],
    [p.ptv, ⟨p.tmrEn, 1⟩], [⟨p.expired, 1⟩], [p.usecDivisor, p.usecDividend], [p.birOscFreq],
    [⟨p.sdramInit, 1⟩, ⟨p.devInit, 1⟩]]

/-- The field layouts of rule R104 are layouts. -/
def RegMap.placesOk (m : RegMap) : Bool := m.layouts.all fieldsOk

/-- The codes of `SYS_SRC` (rule R106). -/
def SysCodes.all (c : SysCodes) : List Word := c.osc :: c.pllSys :: c.tap

/-- The codes of `CPU_SRC` (rule R106). -/
def CpuCodes.all (c : CpuCodes) : List Word := [c.osc, c.pllSys, c.pllCpu]

/-- The codes of rule R106 fit their fields and tell apart what they encode. -/
def RegMap.codesOk (m : RegMap) : Bool :=
  decide m.sysCode.all.Nodup && m.sysCode.all.all m.place.sysSrc.holds && decide m.cpuCode.all.Nodup &&
    m.cpuCode.all.all m.place.cpuSrc.holds &&
    Part.all.all (fun i => decide (m.partId.get i < 2 ^ m.place.partId.width)) &&
    m.place.oscFreq.holds m.oscUnknown

/-- A divider's fields hold values of their width (rules R27, R29). -/
def Divider.fits (d : DividerPlaces) (x : Divider) : Bool := d.dividend.holds x.dividend && d.divisor.holds x.divisor

/-- The dividers of a PLL hold values of their width (rule R35). -/
def PllBase.fits (m : RegMap) (x : PllBase) : Bool :=
  m.place.pll.divm.holds x.divm && m.place.pll.divn.holds x.divn && m.place.pll.divp.holds x.divp

/-- The lines of each kind hold a value of their field's width (rule R32). -/
def Lines.fit (m : RegMap) (x : Lines) : Bool := LineKind.all.all (fun k => (m.place.lines.get k).holds (x.core.get k))

/-- Every field of several bits holds a value of its width (rules R23 to R49, R104). -/
def HwState.fits (m : RegMap) (h : HwState) : Bool :=
  m.place.oscFreq.holds h.oscFreq && m.place.pllRefDiv.holds h.pllRefDiv && m.place.refClkWin.holds h.refClkWin &&
    m.place.detCount.holds h.detCount && m.place.sysSrc.holds h.sysSrc && h.sclkDivider.fits m.place.sclkDivider &&
    m.place.cpuSrc.holds h.cpuSrc && h.cclkDivider.fits m.place.cclkDivider && h.rstCmplx.p.fit m &&
    h.rstCmplx.e.fit m && PllId.all.all (fun p => (h.pllBase.get p).fits m &&
      m.place.setup.holds (h.pllMisc.get p).setup &&
      (m.place.taps.zip (h.taps.get p)).all (fun x => x.1.ratio.holds x.2.ratio)) &&
    m.place.partId.holds h.partId && m.place.ptv.holds h.tmrPtv && m.place.usecDividend.holds h.usecDividend &&
    m.place.usecDivisor.holds h.usecDivisor && m.place.birOscFreq.holds h.bir.oscFreq

/-- A well-formed register map. -/
def RegMap.wf (m : RegMap) : Bool := m.offsetsOk && m.placesOk && m.codesOk

/-- A well-formed configuration. -/
def Config.wf (cfg : Config) : Bool :=
  cfg.pllCountOk && cfg.tapCountOk && cfg.masksOk && cfg.coreCountOk && cfg.timerOk && cfg.boundsOk && cfg.basesOk &&
    cfg.oscSetOk && cfg.rangesOk && cfg.outsideOk && cfg.valuesFit && cfg.map.wf

end Sys2Proof
end

