-- ==== Sys2Proof/Decode.lean ====
section
/-! DEFINITION. The decoder of rule R108 over the map of a configuration, total on any bytes and rejecting by name, and
after it the encoder of rules R100 and R101. -/

namespace Sys2Proof

/-- Why a transaction names no command. -/
inductive DecodeError where
  /-- Not the nine bytes of one transaction word (rule R100: one length, one format family). -/
  | notOneWord
  /-- A bit above `T[64]` is set: not a 65-bit transaction word (rule R100). -/
  | extraBits
  /-- `ADDR[1:0] ≠ 0` (rules R83, R108 step 1). -/
  | misaligned
  /-- Outside every aperture and outside the boot information record (rules R88, R108 step 2). -/
  | outsideApertures
  /-- No register at that offset (rules R88, R108 step 3). -/
  | noRegister
  deriving DecidableEq, Repr

/-- The aperture that holds an address (rule R108, step 2). -/
def apertureOf (cfg : Config) (addr : Word) : Option Aperture :=
  Aperture.all.find? (fun a => decide ((cfg.base.get a).toNat ≤ addr.toNat) &&
    decide (addr.toNat < (cfg.base.get a).toNat + cfg.map.apertureBytes))

/-- The register at an offset of an aperture (rule R108, step 3). Presence under the configuration is the
meaning's first check, `Machine.ifPresent` (log entry 9). -/
def regAt (m : RegMap) (ap : Aperture) (offset : Nat) : Option Reg :=
  Reg.all.find? (fun r => r.aperture == ap && r.offset m == offset)

/-- The command an access names (rule R108). -/
def decodeAccess (cfg : Config) (write : Bool) (addr data : Word) : Except DecodeError Instr :=
  if addr.toNat % 4 ≠ 0 then .error .misaligned
  else
    match apertureOf cfg addr with
    | none => .error .outsideApertures
    | some ap =>
      match regAt cfg.map ap (addr.toNat - (cfg.base.get ap).toNat) with
      | none => .error .noRegister
      | some r => .ok (.ofParts write r data)

/-- The command a 65-bit transaction word names: `T[64]` is `W`, `T[63:32]` `ADDR`, `T[31:0]` `DATA` (rule
R100). -/
def decodeWord (cfg : Config) (t : BitVec 65) : Except DecodeError Instr :=
  decodeAccess cfg (t.getLsbD 64) (t.extractLsb' 32 32) (t.extractLsb' 0 32)

/-- The number whose little-endian bytes these are (rule R82: byte 0 is bits [7:0]). -/
def natOfBytes : List Byte → Nat
  | [] => 0
  | b :: bs => b.toNat + 256 * natOfBytes bs

/-- The `k` low bytes of a number, least significant first. -/
def bytesOfNat : Nat → Nat → List Byte
  | 0, _ => []
  | k + 1, n => BitVec.ofNat 8 n :: bytesOfNat k (n / 256)

/-- The number of bytes a transaction word is stored in: 65 bits in whole bytes. -/
def wordBytes : Nat := 9

/-- The decoder on stored bytes: nine of them, least significant first, with every bit above `T[64]` zero. -/
def decode (cfg : Config) (bytes : List Byte) : Except DecodeError Instr :=
  if bytes.length ≠ wordBytes then .error .notOneWord
  else if 2 ^ 65 ≤ natOfBytes bytes then .error .extraBits
  else decodeWord cfg (BitVec.ofNat 65 (natOfBytes bytes))

/-- The stored bytes of an instruction whose bits are `w`, numbered as the opcode table numbers them; every bit
above `nbits` is 0, up to the longest instruction. -/
def tableBytes (nbits w : Nat) : List Byte :=
  bytesOfNat (max wordBytes ((nbits + 7) / 8)) (w % 2 ^ nbits)

/-- The instruction the decoder reads from an instruction whose bits are `w`, under the default bases and
map that `opcode_table.json` uses (rules R102, R103). -/
def decodeTableWord (nbits w : Nat) : Option Instr :=
  (decode .default (tableBytes nbits w)).toOption

/-- The transaction word of a command (rules R100, R101). -/
def encodeWord (cfg : Config) (i : Instr) : BitVec 65 :=
  (BitVec.ofBool i.isWrite ++ i.reg.addr cfg) ++ i.data

/-- The stored bytes of a command's transaction word. -/
def encode (cfg : Config) (i : Instr) : List Byte :=
  bytesOfNat wordBytes (encodeWord cfg i).toNat

end Sys2Proof
end

