-- ==== Sys2Proof/Machine/State.lean ====
section
/-! DEFINITION. Everything the spec gives the machine, as plain data (`spec/10_state.md` and rules R275, R352);
the faults and refusals a step can end in; and the state after reset. -/

namespace Sys2Proof.Machine

open Sys2Proof

/-- The hardware agents of rule R60. -/
inductive HwAgent where
  | pll (p : PllId)
  | freqDet
  | powerGate
  | clamp (i : Part)
  | ramRepair
  | resetSync (c : Cluster)
  | timer
  | appCpu
  deriving DecidableEq, Repr

/-- One entry of a schedule: who takes the next step (rules R60, R61). -/
inductive Move where
  | master
  | agent (a : HwAgent)
  deriving DecidableEq, Repr

/-- The events of `history` (rule R57): a transaction with its address, data and result, an agent step, a
post. -/
inductive Event where
  | rd (r : Reg) (addr result : Word)
  | wr (r : Reg) (addr data : Word)
  | agent (a : HwAgent)
  | post (ch : Byte)
  deriving DecidableEq, Repr

/-- A reset line with an owner partition (rules R218, R221, R362). -/
inductive ResetLine where
  | cpuComplex
  | nonCpu (c : Cluster)
  | core0 (c : Cluster)
  deriving DecidableEq, Repr

/-- The clock a clock check finds lost (rule R182). -/
inductive ClockDomain where
  | sys | cpu
  deriving DecidableEq, Repr

/-- `HazardViolation(kind)`, the twelve kinds of rule R325. Each ends the run: the spec gives the broken order no
behaviour. All are safe: the chip goes on somehow and the model claims nothing of it. -/
inductive Fault where
  /-- Raised by `WR_PLL_BASE_p`: dividers changed on an enabled PLL (rule R145). Safe. -/
  | pllReprogramWhileEnabled (p : PllId)
  /-- Raised by `WR_PLL_OUTA_p`, `WR_PLL_OUTB_p`: a tap enabled before its base PLL runs (rule R151). Safe. -/
  | tapEnabledBeforeBase (p : PllId) (k : Nat)
  /-- Raised by the clock check after a write or an agent step: a clock in use has no clean source (rule R182).
  Safe. -/
  | clockLost (d : ClockDomain)
  /-- Raised by `WR_CLK_ENB`: CPU gate opened without power or before reset assertion (rule R180). Safe. -/
  | cpuClockEnabledBadly
  /-- Raised by `WR_PWRGATE_TOGGLE`: a toggle started before the last one completed (rule R192). Safe. -/
  | toggleWhilePending
  /-- Raised by `WR_PWRGATE_TOGGLE`: a dependent toggled with the rail off, or the rail turned off under a
  dependent (rules R192, R202). Safe. -/
  | powerDependency (i : Part)
  /-- Raised by `WR_REMOVE_CLAMPING_CMD`: clamp removed from an unpowered partition (rule R197). Safe. -/
  | clampRemovedUnpowered (i : Part)
  /-- Raised by `WR_RST_DEV_CLR`, `WR_RST_CMPLX_CLR_c`: a line deasserted while its owner is off (rules R218,
  R221). Safe. -/
  | resetReleasedUnpowered (x : ResetLine)
  /-- Raised by `WR_RST_CMPLX_CLR_c`: release step 5 before steps 1 and 2 (rule R221). Safe. -/
  | core0ReleasedBeforeNonCpu (c : Cluster)
  /-- Raised by `WR_RST_CMPLX_CLR_c`: core 0 released with the CPU gate closed (rule R221). Safe. -/
  | core0ReleasedWithoutClock (c : Cluster)
  /-- Raised by `WR_RST_CMPLX_CLR_c`: release step 5 before step 3 on a dual-cluster chip (rule R221). Safe. -/
  | softRstNotMirrored
  deriving DecidableEq, Repr

/-- The causes of rule R326: a transaction the source gives no meaning. Each ends the run and changes no state.
All are safe: nothing is claimed of what the chip does. -/
inductive Refusal where
  /-- Raised by an arm of `exec` whose instruction has no meaning yet; no arm does. Safe. -/
  | notModelled (mnemonic : String)
  /-- Raised by the bus: the word names no command (rules R83, R88, R108). Safe. -/
  | badTransaction (e : DecodeError)
  /-- Raised by the bus: an access of another width than 32 bits (rule R81). Safe. -/
  | unsupportedWidth
  /-- Raised by any command of a register the configuration does not have (rule R88). Safe. -/
  | absentRegister (r : Reg)
  /-- Raised by the five writes to the boot information record (rules R89, R274). Safe. -/
  | bootRecordWrite (r : Reg)
  /-- Raised by `WR_PWRGATE_TOGGLE`: `START = 1` with `PARTID ≥ 5` (rule R192, case U7). Safe. -/
  | reservedPartition
  /-- Raised by `WR_RST_CMPLX_CLR_c`: a secondary core's line would be released (rule R221, case U10). Safe. -/
  | secondaryCoreRelease
  /-- Raised by `WR_TMR_PTV`: `PTV > TMR_MAX` (rule R246, case U9). Safe. -/
  | timerSpan
  /-- Raised by `WR_CLUSTER_CONTROL`: `ACTIVE_CLUSTER = 1` without `DUAL_CLUSTER` (rule R269, case U12). Safe. -/
  | singleCluster
  /-- Raised by the Boot Sequencer when the Cluster Selector answered `Unknown` (rule R301). Safe. -/
  | unknownBootCluster
  /-- Raised by `step` in a state whose `refused` mark is set: the run has ended (rule R326). Safe. -/
  | runEnded
  deriving DecidableEq, Repr

/-- The master's own variables (rules R21, R110, R275) and the statements it has still to run. -/
structure Master where
  /-- The scratch variable: the result of the last read. -/
  v : Word
  /-- The position of the Boot Sequencer. -/
  seq : SeqState
  bootCluster : ClusterId
  oscFreq : Word
  /-- The argument of `runBootSequencer`. -/
  resetVector : Word
  /-- `b` of `queryBootCluster` (rule R287). -/
  fuseWord : Word
  /-- `c` of the reset procedures (rules R294, R295). -/
  activeCluster : Cluster
  /-- The rest of the command list; its head is the next command (rule R21). -/
  prog : List Op
  deriving DecidableEq, Repr

/-- The whole machine: the registers, the hidden state and the inputs (`HwState`), and what follows. -/
structure State extends HwState where
  /-- The configuration of rule R8: constant. -/
  cfg : Config
  /-- `entry`: where the application CPU took its first fetch (rule R63). -/
  entry : Option Word
  /-- `fault` (rule R57). -/
  fault : Option Fault
  /-- `refused` (rule R57). -/
  refused : Bool
  /-- `history`, oldest event first (rules R57, R360). -/
  history : List Event
  /-- The master (rules R60, R275). -/
  master : Master
  /-- The MODEL's own: who steps next; when it is empty, the master (log entry 3). -/
  sched : List Move
  /-- The MODEL's own: how many free values have been drawn (log entry 4). -/
  drawn : Nat
  deriving DecidableEq, Repr

/-- A master that has nothing to run (rule R353: `seq = Init`). -/
def Master.idle : Master where
  v := 0
  seq := .init
  bootCluster := .unknown
  oscFreq := 0
  resetVector := 0
  fuseWord := 0
  activeCluster := .p
  prog := []

/-- The machine after reset under a configuration: every state element at the value `RESET_STATE` gives it, the marks
clear and nothing loaded into the master (rules R8, R350, R353; log entries 1, 5, 14). -/
def State.powerOn (cfg : Config) : State where
  toHwState := cfg.resetState
  cfg := cfg
  entry := none
  fault := none
  refused := false
  history := []
  master := .idle
  sched := []
  drawn := 0

/-- The machine after reset under the default configuration, whose `RESET_STATE` is the profile `COLD0` of rule R352
(log entries 1, 2). -/
def State.reset : State := State.powerOn .default

end Sys2Proof.Machine
end

