-- ==== Sys2Proof/Machine/Operands.lean ====
section
/-! DEFINITION. Operand assembly over the register map of the configuration: how a `DATA` word splits into fields, how a
read value is assembled from fields (rules R84, R85, R104, R105), and the table lookups of the procedures (rule
R276). -/

namespace Sys2Proof.Machine

open Sys2Proof

/-! ### Fields -/

/-- The value of a field of several bits in a word: `d[hi:lo]`, zero-extended (rules R9, R105). -/
def fieldOf (f : FieldPlace) (d : Word) : Word := (d.extractLsb' f.lo f.width).setWidth 32

/-- A value cut to the width of a field. -/
def cutTo (f : FieldPlace) (x : Word) : Word := (x.setWidth f.width).setWidth 32

/-- A value in its field: `zext_32(x) << lo` (rule R105). -/
def putField (f : FieldPlace) (x : Word) : Word := cutTo f x <<< f.lo

/-- A flag at bit `lo`. -/
def placeBit (lo : Nat) (b : Bool) : Word := (BitVec.ofBool b).setWidth 32 <<< lo

/-- One `FIELD=number` of the assembler: position, width, number (rules R104, R110). -/
structure FieldValue extends FieldPlace where
  value : Nat
  deriving DecidableEq, Repr

/-- `DATA` assembled from field values, every unlisted bit 0; a value that does not fit its field is rejected
(rule R105). -/
def assembleData (fs : List FieldValue) : Option Word :=
  if fs.all (fun f => decide (f.value < 2 ^ f.width)) then
    some (fs.foldl (fun w f => w ||| BitVec.ofNat 32 f.value <<< f.lo) 0)
  else none

/-- The RW fields of a `PLL_BASE` write; `LOCK` and reserved bits are ignored (rules R35, R145). -/
def pllBaseOfWord (m : RegMap) (d : Word) : PllBase where
  divm := fieldOf m.place.pll.divm d
  divn := fieldOf m.place.pll.divn d
  divp := fieldOf m.place.pll.divp d
  enable := d.getLsbD m.place.pll.enable
  bypass := d.getLsbD m.place.pll.bypass

/-- The three dividers in their places: `(DIVP << 20) | (DIVN << 8) | DIVM` (rules R35, R278). -/
def divWord (m : RegMap) (divm divn divp : Word) : Word :=
  putField m.place.pll.divp divp ||| putField m.place.pll.divn divn ||| putField m.place.pll.divm divm

/-- The read value of `PLL_BASE` with the computed `LOCK` (rules R35, R144). -/
def pllBaseWord (m : RegMap) (b : PllBase) (lock : Bool) : Word :=
  placeBit m.place.pll.bypass b.bypass ||| placeBit m.place.pll.enable b.enable ||| placeBit m.place.pll.lock lock |||
    divWord m b.divm b.divn b.divp

/-- The fields of a `PLL_MISC` write (rules R36, R149). -/
def pllMiscOfWord (m : RegMap) (d : Word) : PllMisc where
  setup := fieldOf m.place.setup d
  lockEnable := d.getLsbD m.place.lockEnable

/-- The read value of `PLL_MISC` (rules R36, R148). -/
def pllMiscWord (m : RegMap) (x : PllMisc) : Word :=
  placeBit m.place.lockEnable x.lockEnable ||| putField m.place.setup x.setup

/-- The fields of a tap in a write of its register (rules R37, R151). -/
def tapOfWord (f : TapPlaces) (d : Word) : Tap where
  rstn := d.getLsbD f.rstn
  clken := d.getLsbD f.clken
  ratio := fieldOf f.ratio d

/-- The fields of a tap in their places (rules R37, R150). -/
def tapWord (f : TapPlaces) (t : Tap) : Word :=
  placeBit f.rstn t.rstn ||| placeBit f.clken t.clken ||| putField f.ratio t.ratio

/-- The word a tap register's taps make when tap `k` is `t k`; the fields of taps it does not hold are 0 (rules R150,
R282). -/
def tapsWord (held : List (Nat × TapPlaces)) (t : Nat → Tap) : Word :=
  held.foldr (fun x w => tapWord x.2 (t x.1) ||| w) 0

/-- The fields of a super-clock divider write (rules R27, R174, R178). -/
def dividerOfWord (p : DividerPlaces) (d : Word) : Divider where
  enb := d.getLsbD p.enb
  dividend := fieldOf p.dividend d
  divisor := fieldOf p.divisor d

/-- The read value of a super-clock divider (rules R173, R177). -/
def dividerWord (p : DividerPlaces) (x : Divider) : Word :=
  placeBit p.enb x.enb ||| putField p.dividend x.dividend ||| putField p.divisor x.divisor

/-- The gates a `CLK_ENB`, `RST_DEV_SET` or `RST_DEV_CLR` word names (rules R30, R31, R106). -/
def gatesOfWord (m : RegMap) (d : Word) : PerGate Bool := .ofFn fun g => d.getLsbD (m.gate.get g)

/-- The gates in their places (rules R179, R216). -/
def gatesWord (m : RegMap) (x : PerGate Bool) : Word :=
  Gate.all.foldr (fun g w => placeBit (m.gate.get g) (x.get g) ||| w) 0

/-- The gates of the boot-required peripherals, and the others (rules R106, R285). -/
def periphGates : PerGate Bool := .ofFn fun g => g != .cpu

/-- The CPU gate of `CLK_ENB`, the whole-complex line of `RST_DEV` (rules R106, R107: `COMPLEX_MASK`). -/
def cpuGateOnly : PerGate Bool := .ofFn fun g => g == .cpu

/-- The partitions in their places (rules R106, R194). -/
def partsWord (m : RegMap) (x : PerPart Bool) : Word :=
  Part.all.foldr (fun i w => placeBit (m.partId.get i) (x.get i) ||| w) 0

/-- `PowerPartitionMask` of a partition: `1 << i` (rule R106). -/
def partMask (m : RegMap) (i : Part) : Word := placeBit (m.partId.get i) true

/-- The partition a `PARTID` names, if any (rules R106, R192). -/
def partOfId (m : RegMap) (n : Word) : Option Part := Part.all.find? (fun i => m.partId.get i == n.toNat)

/-- The cluster a bit of `ACTIVE_CLUSTER` encodes (rule R106). -/
def clusterOfBit (m : RegMap) (b : Bool) : Cluster := if b == m.effCode then .e else .p

/-- The bit that encodes a cluster (rule R106). -/
def clusterBit (m : RegMap) (c : Cluster) : Bool := (c == .e) == m.effCode

/-- The lines a word of `RST_CMPLX_SET[c]` or `RST_CMPLX_CLR[c]` names (rules R32, R104). -/
def linesOfWord (m : RegMap) (d : Word) : Lines where
  core := .ofFn fun k => fieldOf (m.place.lines.get k) d
  nonCpu := d.getLsbD m.place.nonCpu

/-- The lines in their places (rules R107, R219). -/
def linesWord (m : RegMap) (x : Lines) : Word :=
  placeBit m.place.nonCpu x.nonCpu |||
    LineKind.all.foldr (fun k w => putField (m.place.lines.get k) (x.core.get k) ||| w) 0

/-! ### Clusters and partitions -/

/-- The non-CPU partition of a cluster (rules R218, R221). -/
def nonCpuPart : Cluster → Part
  | .p => .nonCpuP
  | .e => .nonCpuE

/-- The CPU partition of a cluster (rules R180, R221). -/
def cpuPart : Cluster → Part
  | .p => .cpu0P
  | .e => .cpuE

/-- `partitions(c)` (rule R58). -/
def clusterParts : Cluster → List Part
  | .p => [.rail, .nonCpuP, .cpu0P]
  | .e => [.nonCpuE, .cpuE]

/-! ### Tables -/

/-- The code is one of `OSC_SET`: `code ≤ 6` under the default codes (rules R106, R252, R276). -/
def oscSupported (cfg : Config) (code : Word) : Bool := cfg.oscSet.any (fun x => x.code == code)

/-- `row(code)`: the oscillator with that code if it is supported, else `OSC_DEFAULT` (rule R276). -/
def oscRow (cfg : Config) (code : Word) : Oscillator := (cfg.oscSet.find? (fun x => x.code == code)).getD cfg.oscDefault

/-- The entry of `PLL_TABLE[p]` for an oscillator code (rules R276, R278). -/
def pllEntry (cfg : Config) (p : PllId) (code : Word) : PllEntry := (oscRow cfg code).pll.get p

/-- `lookup(code)`, without its soft assertion (rule R276). -/
def freqEntry (cfg : Config) (code : Word) : FreqConst := (oscRow cfg code).freq

/-- The code whose measured range holds a count, or "unknown" if none (rules R257, R258). -/
def codeOfCount (cfg : Config) (n : Word) : Word :=
  match cfg.oscSet.find? (fun x => x.range.holds n) with
  | some x => x.code
  | none => cfg.map.oscUnknown

/-- The member of `OSC_SET` a crystal is, if it is one (rule R54). -/
def crystalOf (cfg : Config) (crystal : Option Nat) : Option Oscillator :=
  cfg.oscSet.find? (fun x => crystal == some x.kHz)

end Sys2Proof.Machine
end

