-- ==== Sys2Proof/Machine/Flags.lean ====
section
/-! DEFINITION. The computed status bits, which play the part of flags (rule R22), and the outputs of the block as
functions of the state (rules R50, R56, R58, R59). -/

namespace Sys2Proof.Machine

open Sys2Proof

/-- The `LOCK` bit of `PLL_BASE[p]` (rule R50). -/
def lockBit (s : State) (p : PllId) : Bool :=
  (s.pllBase.get p).enable && s.pllStable.get p && (s.pllMisc.get p).lockEnable && s.cfg.lockReliable.get p

/-- The `START` bit of `PWRGATE_TOGGLE`: 1 iff `pg_pending ≠ none` (rules R39, R191). -/
def toggleBusy (s : State) : Bool := s.pgPending.isSome

/-- `PWRGATE_STATUS[i]` (rule R40). -/
def isPowered (s : State) (i : Part) : Bool := s.pwrStatus.get i

/-- `pll_out_ok(p)` (rule R59). -/
def pllOutOk (s : State) (p : PllId) : Bool :=
  (s.pllBase.get p).bypass || ((s.pllBase.get p).enable && s.pllStable.get p)

/-- `tap_ok(p, k)` (rule R59). -/
def tapOk (s : State) (p : PllId) (k : Nat) : Bool :=
  pllOutOk s p && (tapAt (s.taps.get p) k).rstn && (tapAt (s.taps.get p) k).clken

/-- The system clock is selected to run from tap `k` of the system PLL, and the tap is clean (rule R59). -/
def sysTapOk (s : State) (k : Nat) : Bool := s.cfg.map.sysCode.tap[k]? == some s.sysSrc && tapOk s .sys k

/-- `sclk_ok` (rule R59; false for a reserved selector). -/
def sclkOk (s : State) : Bool :=
  s.sysSrc == s.cfg.map.sysCode.osc || (s.sysSrc == s.cfg.map.sysCode.pllSys && pllOutOk s .sys) ||
    (List.range s.cfg.ntaps.sys).any (sysTapOk s)

/-- `cclk_ok` (rule R59; false for a reserved selector). -/
def cclkOk (s : State) : Bool :=
  s.cpuSrc == s.cfg.map.cpuCode.osc || (s.cpuSrc == s.cfg.map.cpuCode.pllSys && pllOutOk s .sys) ||
    (s.cpuSrc == s.cfg.map.cpuCode.pllCpu && pllOutOk s .cpu)

/-- `CLK_ENB.CPU` (rule R30). -/
def cpuGateOpen (s : State) : Bool := s.clkEnb.cpu

/-- `periph_usable(x)`, for a peripheral's gate (rules R59, R183). -/
def periphUsable (s : State) (x : Gate) : Bool := s.clkEnb.get x && !s.rstDev.get x

/-- The reset line of a kind of core `n` of cluster `c` is asserted (rule R32). -/
def lineAsserted (s : State) (c : Cluster) (k : LineKind) (n : Nat) : Bool := ((s.rstCmplx.get c).core.get k).getLsbD n

/-- `NONCPURESET` of cluster `c` is asserted (rule R32). -/
def nonCpuAsserted (s : State) (c : Cluster) : Bool := (s.rstCmplx.get c).nonCpu

/-- `secondary_held(c)`: every secondary core's own line is asserted (rule R59). -/
def secondaryHeld (s : State) (c : Cluster) : Bool :=
  (List.range (s.cfg.ncores.get c)).all (fun n => n == 0 || lineAsserted s c .cpu n)

/-- `powered(c)` (rule R58). -/
def clusterPowered (s : State) (c : Cluster) : Bool := (clusterParts c).all (isPowered s)

/-- `core0_runs(c)`, the block's final observable (rule R58). -/
def core0Runs (s : State) (c : Cluster) : Bool :=
  s.activeCluster == c && clusterPowered s c && (clusterParts c).all (fun i => !s.clamp.get i) &&
    cpuGateOpen s && cclkOk s && !s.rstDev.cpu && !nonCpuAsserted s c && !s.nonCpuInReset.get c &&
    !lineAsserted s c .cpu 0 && !lineAsserted s c .dbg 0 && !lineAsserted s c .core 0 && !lineAsserted s c .cx 0

/-- `PllSettle(p)` is pending (rule R56). -/
def pllSettling (s : State) (p : PllId) : Bool :=
  s.cfg.pllPresent p && (s.pllBase.get p).enable && !s.pllStable.get p

/-- `ClampSettle(i)` is pending (rule R56). -/
def clampSettling (s : State) (i : Part) : Bool := s.clampPending.get i

/-- The dividers of PLL `p` let it stabilise (rule R147, case U1). -/
def dividersRun (s : State) (p : PllId) : Bool := (s.pllBase.get p).divm != 0 && (s.pllBase.get p).divn != 0

/-- The settle processes pending now whose bound fits a countdown of `ticks`: `bound(q) + 1 ≤ ticks` (rule R246). -/
def settleCovered (s : State) (ticks : Nat) : SettleSet where
  pll := .ofFn fun p => pllSettling s p && decide (s.cfg.pllStabUs.get p + 1 ≤ ticks)
  clamp := .ofFn fun i => clampSettling s i && decide (s.cfg.clampSettleUs + 1 ≤ ticks)

/-- `PllSettle(p)`, if covered, keeps the countdown from expiring while it is pending (rule R247). A PLL with a zero
divider can never settle: then "a covered settle process that cannot complete" makes the poll of `EXPIRED` hang (rule
R321), or the stall "hangs only if the timer is not usable" (rule R281) and "returns with `pll_stable[p]` false" (case
U1 of `spec/93_implementation_defined.md`), as the configuration says. DEDUCED (log entry 17): the spec says both. -/
def pllHolds (s : State) (p : PllId) : Bool :=
  pllSettling s p && (s.cfg.zeroDividerStall == .hangs || dividersRun s p)

/-- Every settle process the running countdown covers and waits for has completed (rule R247). -/
def settleDone (s : State) : Bool :=
  PllId.all.all (fun p => !(s.tmrSettle.pll.get p && pllHolds s p)) &&
    Part.all.all (fun i => !(s.tmrSettle.clamp.get i && clampSettling s i))

/-- The clock check of rule R182: the fault it raises, if any, the system clock first. -/
def clockFault (s : State) : Option Fault :=
  if !sclkOk s then some (.clockLost .sys)
  else if cpuGateOpen s && !cclkOk s then some (.clockLost .cpu)
  else none

end Sys2Proof.Machine
end

