-- ==== Sys2Proof/Machine/Stores.lean ====
section
/-! DEFINITION. What each write command stores when it raises nothing, register by register. -/

namespace Sys2Proof.Machine

open Sys2Proof

/-- When `pll_stable[p]` survives a write of `PLL_BASE[p]` (rule R146). -/
def stableAfter (old new : PllBase) (stable : Bool) : Bool :=
  if !new.enable then false
  else if !old.enable then false
  else stable

/-- The stores of `WR_PLL_BASE_p` (rules R145, R146). -/
def storedPllBase (p : PllId) (d : Word) (s : State) : State :=
  { s with
    pllBase := s.pllBase.set p (pllBaseOfWord s.cfg.map d)
    pllStable := s.pllStable.set p
      (stableAfter (s.pllBase.get p) (pllBaseOfWord s.cfg.map d) (s.pllStable.get p)) }

/-- The taps after a write of `d` stored the taps `held`, in order (rule R151). -/
def storeTaps (held : List (Nat × TapPlaces)) (d : Word) (taps : List Tap) : List Tap :=
  held.foldl (fun t x => setTap t x.1 (tapOfWord x.2 d)) taps

/-- The stores of a write of a tap register of PLL `p` that holds the taps `held` (rule R151). -/
def storedTaps (p : PllId) (held : List (Nat × TapPlaces)) (d : Word) (s : State) : State :=
  { s with taps := s.taps.set p (storeTaps held d (s.taps.get p)) }

/-- `valid[c]` under the configuration (rule R215). -/
def validLines (s : State) (c : Cluster) : Lines := definedLines (s.cfg.ncores.get c)

/-- The defined lines of cluster `c` a word names: `DATA & valid[c]` (rules R220, R221). -/
def namedLines (s : State) (c : Cluster) (d : Word) : Lines := (linesOfWord s.cfg.map d).and (validLines s c)

/-- The stores of `WR_RST_CMPLX_SET_c` (rule R220). -/
def storedRstSet (c : Cluster) (d : Word) (s : State) : State :=
  { s with
    rstCmplx := s.rstCmplx.set c ((s.rstCmplx.get c).or (namedLines s c d))
    nonCpuInReset := s.nonCpuInReset.set c (s.nonCpuInReset.get c || (namedLines s c d).nonCpu) }

/-- `m`: the lines a clear write changes (rule R221). -/
def releasedLines (s : State) (c : Cluster) (d : Word) : Lines := (namedLines s c d).and (s.rstCmplx.get c)

/-- The stores of `WR_RST_CMPLX_CLR_c` (rule R221). -/
def storedRstClr (c : Cluster) (d : Word) (s : State) : State :=
  { s with rstCmplx := s.rstCmplx.set c ((s.rstCmplx.get c).without (releasedLines s c d)) }

/-- `RST_DEV | DATA` (rule R217). -/
def setGates (m : RegMap) (d : Word) (x : PerGate Bool) : PerGate Bool :=
  .ofFn fun g => x.get g || d.getLsbD (m.gate.get g)

/-- `RST_DEV & ~DATA` (rule R218). -/
def clearGates (m : RegMap) (d : Word) (x : PerGate Bool) : PerGate Bool :=
  .ofFn fun g => x.get g && !d.getLsbD (m.gate.get g)

/-- `DATA[START]` of `WR_PWRGATE_TOGGLE` (rule R192). -/
def startsToggleWord (m : RegMap) (d : Word) : Bool := d.getLsbD m.place.start

/-- `DATA[PARTID]` of `WR_PWRGATE_TOGGLE` (rule R192). -/
def partIdOfWord (m : RegMap) (d : Word) : Word := fieldOf m.place.partId d

/-- The stores of `WR_PWRGATE_TOGGLE` (rule R192). -/
def storedToggle (d : Word) (s : State) : State :=
  { s with
    partId := partIdOfWord s.cfg.map d
    pgPending := if startsToggleWord s.cfg.map d then partOfId s.cfg.map (partIdOfWord s.cfg.map d) else s.pgPending }

/-- Partition `i` is named by a `REMOVE_CLAMPING_CMD` word (rules R41, R106). -/
def namesPart (m : RegMap) (d : Word) (i : Part) : Bool := d.getLsbD (m.partId.get i)

/-- The stores of `WR_REMOVE_CLAMPING_CMD`: the named clamps still in place become pending (rule R197). -/
def storedClamps (d : Word) (s : State) : State :=
  { s with
    clampPending := .ofFn fun i => s.clampPending.get i || (namesPart s.cfg.map d i && s.clamp.get i) }

/-- The stores of `WR_REMOVE_CLAMPING_CMD` before its check of partition `i`: those of the partitions below it (rule
R197, whose loop runs upward; case of rule R325 in log entry 6). -/
def storedClampsBelow (i : Part) (d : Word) (s : State) : State :=
  { s with
    clampPending := .ofFn fun j =>
      s.clampPending.get j ||
        ((Part.all.takeWhile (· != i)).contains j && namesPart s.cfg.map d j && s.clamp.get j) }

/-- The stores of a tap register's write before its check of tap `k`: the taps that stand before it (rule R151, whose
loop stores each tap after its check). -/
def storedTapsBelow (p : PllId) (held : List (Nat × TapPlaces)) (k : Nat) (d : Word) (s : State) : State :=
  storedTaps p (held.takeWhile (fun x => x.1 != k)) d s

/-- The stores of `WR_RAM_REPAIR` (rule R200). -/
def storedRepair (d : Word) (s : State) : State :=
  if !d.getLsbD s.cfg.map.place.repairReq then { s with ramReq := false, ramSts := false, repairPending := false }
  else if !s.ramReq then { s with ramReq := true, ramSts := false, repairPending := true }
  else s

/-- `DATA[PTV]` of `WR_TMR_PTV` (rule R246). -/
def ptvOfWord (m : RegMap) (d : Word) : Word := fieldOf m.place.ptv d

/-- The stores of `WR_TMR_PTV` (rule R246). -/
def storedTimer (d : Word) (s : State) : State :=
  if d.getLsbD s.cfg.map.place.tmrEn then
    { s with
      tmrEn := true
      tmrPtv := ptvOfWord s.cfg.map d
      tmrRunning := true
      tmrValue := (ptvOfWord s.cfg.map d).toNat
      tmrExpired := false
      tmrSettle := settleCovered s (ptvOfWord s.cfg.map d).toNat }
  else { s with tmrEn := false, tmrPtv := ptvOfWord s.cfg.map d, tmrRunning := false, tmrSettle := .empty }

/-- The cluster a `CLUSTER_CONTROL` word names (rule R269). -/
def clusterOfWord (m : RegMap) (d : Word) : Cluster := clusterOfBit m (d.getLsbD m.place.activeCluster)

/-- The state after the stores of a write of `d` to register `r` (rule R85); a register all of whose fields are `RO`
stores nothing (rule R89). -/
def storesOf (d : Word) (s : State) : Reg → State
  | .oscCtrl =>
    { s with oscFreq := fieldOf s.cfg.map.place.oscFreq d, pllRefDiv := fieldOf s.cfg.map.place.pllRefDiv d }
  | .oscFreqDet =>
    { s with
      refClkWin := fieldOf s.cfg.map.place.refClkWin d
      detBusy := s.detBusy || d.getLsbD s.cfg.map.place.detStart }
  | .sclkBurstPolicy => { s with sysSrc := fieldOf s.cfg.map.place.sysSrc d }
  | .sclkDivider => { s with sclkDivider := dividerOfWord s.cfg.map.place.sclkDivider d }
  | .cclkBurstPolicy => { s with cpuSrc := fieldOf s.cfg.map.place.cpuSrc d }
  | .cclkDivider => { s with cclkDivider := dividerOfWord s.cfg.map.place.cclkDivider d }
  | .clkEnb => { s with clkEnb := gatesOfWord s.cfg.map d }
  | .rstDevSet => { s with rstDev := setGates s.cfg.map d s.rstDev }
  | .rstDevClr => { s with rstDev := clearGates s.cfg.map d s.rstDev }
  | .rstCmplxSet c => storedRstSet c d s
  | .rstCmplxClr c => storedRstClr c d s
  | .cpuSoftrstCtrl c => { s with softRst := s.softRst.set c d }
  | .pllBase p => storedPllBase p d s
  | .pllMisc p => { s with pllMisc := s.pllMisc.set p (pllMiscOfWord s.cfg.map d) }
  | .pllOutA p => storedTaps p ((Reg.pllOutA p).taps s.cfg) d s
  | .pllOutB p => storedTaps p ((Reg.pllOutB p).taps s.cfg) d s
  | .resetVector => { s with resetVector := d }
  | .pwrgateToggle => storedToggle d s
  | .removeClampingCmd => storedClamps d s
  | .clusterControl => { s with activeCluster := clusterOfWord s.cfg.map d }
  | .ramRepair => storedRepair d s
  | .tmrPtv => storedTimer d s
  | .timerusUsecCfg =>
    { s with
      usecDividend := fieldOf s.cfg.map.place.usecDividend d
      usecDivisor := fieldOf s.cfg.map.place.usecDivisor d }
  | .oscFreqDetStatus | .rstCmplxStatus _ | .pwrgateStatus | .bondOut | .cpuDisable | .tmrSts
  | .sigVersion | .sigDataVersion | .birOscFreq | .bootType | .flags => s

/-- What a write of `d` to register `r` has stored when it raises `k`. "Where a rule's pseudocode raises before it
stores, the command has no effect; `ClockLost`, which is checked after the store, is raised with the store done" (rule
R325). Between the two stand the commands whose pseudocode stores something before the check that raises: `PARTID` of
rule R192, the earlier taps of rule R151, the lower partitions of rule R197. DEDUCED (log entry 6): those stores are
done. -/
def storedAtFault (k : Fault) (r : Reg) (d : Word) (s : State) : State :=
  match k with
  | .clockLost _ => storesOf d s r
  | .toggleWhilePending | .powerDependency _ => { s with partId := partIdOfWord s.cfg.map d }
  | .tapEnabledBeforeBase p j => storedTapsBelow p (r.taps s.cfg) j d s
  | .clampRemovedUnpowered i => storedClampsBelow i d s
  | .pllReprogramWhileEnabled _ | .cpuClockEnabledBadly | .resetReleasedUnpowered _ | .core0ReleasedBeforeNonCpu _
  | .core0ReleasedWithoutClock _ | .softRstNotMirrored => s

end Sys2Proof.Machine
end

