-- ==== Sys2Proof/Machine/Ops.lean ====
section
/-! DEFINITION. The shared operations of every meaning: ending a run by a fault or a refusal, the presence check,
the record of an event, and how a read and a write complete (rules R84, R85, R182, R325, R326). The block takes no
exception and returns from none (rules R299, R320); `raise` is the one place where a `HazardViolation` is raised. -/

namespace Sys2Proof.Machine

open Sys2Proof

/-- What a step answers. -/
abbrev Result := Host.Outcome State Fault Refusal

/-- `raise HazardViolation(kind)`: the run ends (rule R325). -/
def raise (k : Fault) : Result := .fault k

/-- `refuse`: no state changes and the run ends (rule R326). -/
def refuse (r : Refusal) : Result := .refused r

/-- Apply a function to the next state, if there is one. -/
def onNext (f : State → State) : Result → Result
  | .next s => .next (f s)
  | .fault k => .fault k
  | .refused r => .refused r

/-- Append an event to `history` (rule R57). -/
def State.log (s : State) (e : Event) : State := { s with history := s.history ++ [e] }

/-- A read completed: it is recorded, and its result is in the master's `v`; nothing else changes (rules R84,
R110). -/
def State.gotRead (s : State) (r : Reg) (value : Word) : State :=
  { s with
    history := s.history ++ [.rd r (r.addr s.cfg) value]
    master := { s.master with v := value } }

/-- A write completed: it is recorded (rule R85). -/
def State.logWrite (s : State) (r : Reg) (data : Word) : State := s.log (.wr r (r.addr s.cfg) data)

/-- A write of `data` to register `r` with its stores done and recorded (rule R85). -/
def State.stored (s : State) (r : Reg) (data : Word) : State := (storesOf data s r).logWrite r data

/-- A command of a register the configuration does not have is refused, before anything else (rules R88, R108,
R328). -/
def ifPresent (r : Reg) (s : State) (k : Result) : Result :=
  if r.present s.cfg then k else refuse (.absentRegister r)

/-- The clock check, applied with the store or the agent's effect done (rules R182, R325). -/
def commit (s : State) : Result :=
  match clockFault s with
  | some k => raise k
  | none => .next s

/-- A read of register `r` whose read value is `value` (rule R84). -/
def readReg (r : Reg) (value : Word) (s : State) : Result := ifPresent r s (.next (s.gotRead r value))

/-- The stores of a write of `data` to register `r`, once its own checks have passed, and the clock check (rules R85,
R182). -/
def store (r : Reg) (data : Word) (s : State) : Result := commit (s.stored r data)

/-- A write to a register whose rule names no check of its own (rule R85); a write to a register all of whose fields are
`RO` changes nothing and is recorded (rule R89). -/
def writeReg (r : Reg) (data : Word) (s : State) : Result := ifPresent r s (store r data s)

/-- The end of an agent's step: `s` has its effect done (rules R92, R182). -/
def agentDone (a : HwAgent) (s : State) : Result := commit (s.log (.agent a))

/-- The run has ended: its `fault` or its `refused` mark is set (rules R325, R326). -/
def State.ended (s : State) : Bool := s.fault.isSome || s.refused

/-- `fault <- some kind`, if `fault` was `none` (rule R325). -/
def State.withFault (s : State) (k : Fault) : State := { s with fault := some (s.fault.getD k) }

/-- A step's outcome as the next state of a run, from the state `s` before the step and the state `left k` the step
leaves when it raises `k` (rules R57, R325). DEDUCED (log entry 6): "A refused transaction changes no state of the
block" (rule R326), only the mark, although the pseudocode of rule R192 stores `PARTID` before its refusal. -/
def mark (s : State) (left : Fault → State) : Result → State
  | .next t => t
  | .fault k => (left k).withFault k
  | .refused _ => { s with refused := true }

end Sys2Proof.Machine
end

