-- ==== Sys2Proof/Machine/Agents.lean ====
section
/-! DEFINITION. The hardware agents of rule R60: when each step is enabled, what it changes, and the step itself
(rules R63, R147, R193, R198, R201, R222, R247, R255). -/

namespace Sys2Proof.Machine

open Sys2Proof

/-- A draw from `FD_RANGE[f].lo` to `FD_RANGE[f].hi` inclusive (rule R255). -/
def countInRange (r : CountRange) (raw : Word) : Word :=
  r.lo + BitVec.ofNat 32 (raw.toNat % (r.hi.toNat - r.lo.toNat + 1))

/-- A draw from the counts in no range (rule R255). -/
def countOutside (cfg : Config) (raw : Word) : Word :=
  if cfg.outside raw then raw else (cfg.outsideCandidates.find? cfg.outside).getD raw

/-- The count a measurement ends with, from a raw draw of any value `COUNT` can hold (rule R255). -/
def countOf (s : State) (raw : Word) : Word :=
  if s.refClkWin == s.cfg.fdWin then
    match crystalOf s.cfg s.oscActual with
    | some x => countInRange x.range raw
    | none => countOutside s.cfg raw
  else raw

/-- The value `COUNT` takes, from a raw draw (rules R25, R255). -/
def drawCount (s : State) (raw : Word) : Word :=
  cutTo s.cfg.map.place.detCount (countOf s (cutTo s.cfg.map.place.detCount raw))

/-- The values an agent's step may draw (rules R193, R255). -/
structure Draw where
  count : Word
  clamp : Bool
  deriving DecidableEq, Repr

/-- The next free values of the run (log entry 4). -/
def State.nextDraw (s : State) : Draw where
  count := Config.freeCount s.drawn
  clamp := Config.freeClamp s.drawn

/-- An agent exists when the unit it belongs to does (rules R8, R35, R43, R103; log entry 16). -/
def agentPresent (cfg : Config) : HwAgent → Bool
  | .pll p => cfg.pllPresent p
  | .resetSync c => cfg.clusterPresent c
  | .ramRepair => cfg.ramRepairPresent
  | .freqDet | .powerGate | .clamp _ | .timer | .appCpu => true

/-- The enabling condition of an agent's step. -/
def agentEnabled (s : State) : HwAgent → Bool
  | .pll p =>
    (s.pllBase.get p).enable && !s.pllStable.get p && dividersRun s p
  | .freqDet => s.detBusy
  | .powerGate => s.pgPending.isSome
  | .clamp i => s.clampPending.get i
  | .ramRepair => s.repairPending && isPowered s .rail
  | .resetSync c => !nonCpuAsserted s c && s.nonCpuInReset.get c && isPowered s (nonCpuPart c)
  | .timer => s.tmrRunning && periphUsable s .timer && settleDone s
  | .appCpu => s.entry.isNone && (core0Runs s .p || core0Runs s .e)

/-- `PllAgent(p).Stabilise` (rule R147). -/
def stabilise (p : PllId) (s : State) : State := { s with pllStable := s.pllStable.set p true }

/-- `FreqDetAgent.Done` (rule R255). -/
def finishMeasurement (d : Draw) (s : State) : State :=
  { s with detBusy := false, detCount := drawCount s d.count, drawn := s.drawn + 1 }

/-- `PowerGateAgent.Complete` (rule R193). -/
def completeToggle (d : Draw) (s : State) : State :=
  match s.pgPending with
  | none => s
  | some i =>
    if isPowered s i then
      { s with
        pwrStatus := s.pwrStatus.set i false
        pgPending := none
        clamp := s.clamp.set i d.clamp
        clampPending := s.clampPending.set i false
        drawn := s.drawn + 1 }
    else { s with pwrStatus := s.pwrStatus.set i true, pgPending := none }

/-- `ClampAgent(i).Release` (rule R198). -/
def releaseClamp (i : Part) (s : State) : State :=
  { s with clamp := s.clamp.set i false, clampPending := s.clampPending.set i false }

/-- `RamRepairAgent.Done` (rule R201). -/
def finishRepair (s : State) : State := { s with ramSts := true, repairPending := false }

/-- `ResetSyncAgent(c).Sync` (rule R222). -/
def syncReset (c : Cluster) (s : State) : State := { s with nonCpuInReset := s.nonCpuInReset.set c false }

/-- `TimerAgent.Expire` (rule R247). -/
def expireTimer (s : State) : State := { s with tmrExpired := true, tmrRunning := false, tmrSettle := .empty }

/-- `AppCpuAgent.FirstFetch` (rule R63). -/
def firstFetch (s : State) : State := { s with entry := some s.resetVector }

/-- What an enabled step of an agent changes, with the values it draws. -/
def agentEffect (d : Draw) : HwAgent → State → State
  | .pll p => stabilise p
  | .freqDet => finishMeasurement d
  | .powerGate => completeToggle d
  | .clamp i => releaseClamp i
  | .ramRepair => finishRepair
  | .resetSync c => syncReset c
  | .timer => expireTimer
  | .appCpu => firstFetch

/-- One step of a hardware agent with given draws; an agent whose step is not enabled lets its turn pass (rules
R60, R92, R182; log entry 13). -/
def agentStepWith (d : Draw) (a : HwAgent) (s : State) : Result :=
  if agentPresent s.cfg a && agentEnabled s a then agentDone a (agentEffect d a s) else .next s

/-- One step of a hardware agent. -/
def agentStep (a : HwAgent) (s : State) : Result := agentStepWith s.nextDraw a s

end Sys2Proof.Machine
end

