-- ==== Sys2Proof/Machine/ClockTree.lean ====
section
/-! DEFINITION. The commands of the clock source selectors, the super-clock dividers and the clock gates
(`spec/41_clock_tree_mux.md`). A source switch has no intermediate state (rule R181). -/

namespace Sys2Proof.Machine

open Sys2Proof

/-- `RD_SCLK_BURST_POLICY` (rule R171). -/
def execRdSclkBurstPolicy (s : State) : Result := readReg .sclkBurstPolicy (putField s.cfg.map.place.sysSrc s.sysSrc) s

/-- `WR_SCLK_BURST_POLICY` (rule R172). -/
def execWrSclkBurstPolicy (data : Word) (s : State) : Result := writeReg .sclkBurstPolicy data s

/-- `RD_SCLK_DIVIDER` (rule R173). -/
def execRdSclkDivider (s : State) : Result :=
  readReg .sclkDivider (dividerWord s.cfg.map.place.sclkDivider s.sclkDivider) s

/-- `WR_SCLK_DIVIDER` (rule R174). -/
def execWrSclkDivider (data : Word) (s : State) : Result := writeReg .sclkDivider data s

/-- `RD_CCLK_BURST_POLICY` (rule R175). -/
def execRdCclkBurstPolicy (s : State) : Result := readReg .cclkBurstPolicy (putField s.cfg.map.place.cpuSrc s.cpuSrc) s

/-- `WR_CCLK_BURST_POLICY` (rule R176). -/
def execWrCclkBurstPolicy (data : Word) (s : State) : Result := writeReg .cclkBurstPolicy data s

/-- `RD_CCLK_DIVIDER` (rule R177). -/
def execRdCclkDivider (s : State) : Result :=
  readReg .cclkDivider (dividerWord s.cfg.map.place.cclkDivider s.cclkDivider) s

/-- `WR_CCLK_DIVIDER` (rule R178). -/
def execWrCclkDivider (data : Word) (s : State) : Result := writeReg .cclkDivider data s

/-- `RD_CLK_ENB` (rule R179). -/
def execRdClkEnb (s : State) : Result := readReg .clkEnb (gatesWord s.cfg.map s.clkEnb) s

/-- The hazard of rule R180: the CPU gate opens while the active cluster's CPU partition is off or core 0's own
reset line is not asserted. -/
def gateOpensBadly (s : State) (data : Word) : Bool :=
  !cpuGateOpen s && (gatesOfWord s.cfg.map data).cpu &&
    (!isPowered s (cpuPart s.activeCluster) || !lineAsserted s s.activeCluster .cpu 0)

/-- `WR_CLK_ENB` (rule R180). -/
def execWrClkEnb (data : Word) (s : State) : Result :=
  ifPresent .clkEnb s <|
    if gateOpensBadly s data then raise .cpuClockEnabledBadly
    else store .clkEnb data s

end Sys2Proof.Machine
end

