-- ==== Sys2Proof/Machine/ClusterReset.lean ====
section
/-! DEFINITION. The commands of the device-reset pair, the cluster reset pairs, the reset status registers and the
soft-reset control registers (`spec/43_cluster_reset_sequencer.md`). -/

namespace Sys2Proof.Machine

open Sys2Proof

/-- `RD_RST_DEV_SET` (rule R216). -/
def execRdRstDevSet (s : State) : Result := readReg .rstDevSet (gatesWord s.cfg.map s.rstDev) s

/-- `WR_RST_DEV_SET` (rule R217). -/
def execWrRstDevSet (data : Word) (s : State) : Result := writeReg .rstDevSet data s

/-- `RD_RST_DEV_CLR` (rule R216). -/
def execRdRstDevClr (s : State) : Result := readReg .rstDevClr (gatesWord s.cfg.map s.rstDev) s

/-- The hazard of rule R218: the whole-complex line is released while the active cluster's non-CPU partition is
off. -/
def complexUnpowered (s : State) (data : Word) : Bool :=
  (gatesOfWord s.cfg.map data).cpu && s.rstDev.cpu && !isPowered s (nonCpuPart s.activeCluster)

/-- `WR_RST_DEV_CLR` (rule R218). -/
def execWrRstDevClr (data : Word) (s : State) : Result :=
  ifPresent .rstDevClr s <|
    if complexUnpowered s data then raise (.resetReleasedUnpowered .cpuComplex)
    else store .rstDevClr data s

/-- The read of either address of a cluster reset pair (rule R219). -/
def readRstCmplx (r : Reg) (c : Cluster) (s : State) : Result := readReg r (linesWord s.cfg.map (s.rstCmplx.get c)) s

/-- `WR_RST_CMPLX_SET_c` (rule R220). -/
def writeRstCmplxSet (c : Cluster) (data : Word) (s : State) : Result := writeReg (.rstCmplxSet c) data s

/-- The exemption for release step 4 (rule R221, conflict C8). -/
def crossClear (s : State) (c : Cluster) (m : Lines) : Bool :=
  s.cfg.dualCluster && s.cfg.crossClusterClear && !(c == s.activeCluster) && m == nonCpuLine

/-- The first hazard check a clear of lines `m` fails, in the order of rule R221. -/
def releaseFault (s : State) (c : Cluster) (m : Lines) : Option Fault :=
  if m.nonCpu && !isPowered s (nonCpuPart c) && !crossClear s c m then
    some (.resetReleasedUnpowered (.nonCpu c))
  else if m.meets core0Lines && !isPowered s (cpuPart c) then
    some (.resetReleasedUnpowered (.core0 c))
  else if m.meets core0RunLines then
    if nonCpuAsserted s c || s.nonCpuInReset.get c then some (.core0ReleasedBeforeNonCpu c)
    else if !cpuGateOpen s then some (.core0ReleasedWithoutClock c)
    else if s.cfg.dualCluster && s.softRst.p != s.softRst.e then some .softRstNotMirrored
    else none
  else none

/-- `WR_RST_CMPLX_CLR_c` (rule R221). -/
def writeRstCmplxClr (c : Cluster) (data : Word) (s : State) : Result :=
  ifPresent (.rstCmplxClr c) s <|
    if (releasedLines s c data).meets otherCoresLines then refuse .secondaryCoreRelease
    else
      match releaseFault s c (releasedLines s c data) with
      | some k => raise k
      | none => store (.rstCmplxClr c) data s

/-- `RD_RST_CMPLX_STATUS_c` (rule R223). -/
def readRstCmplxStatus (c : Cluster) (s : State) : Result :=
  readReg (.rstCmplxStatus c) (placeBit s.cfg.map.place.nonCpuInReset (s.nonCpuInReset.get c)) s

/-- `RD_CPU_SOFTRST_CTRL_c` (rule R225). -/
def readSoftRst (c : Cluster) (s : State) : Result := readReg (.cpuSoftrstCtrl c) (s.softRst.get c) s

/-- `WR_CPU_SOFTRST_CTRL_c` (rule R226). -/
def writeSoftRst (c : Cluster) (data : Word) (s : State) : Result :=
  writeReg (.cpuSoftrstCtrl c) data s

/-- `RD_RST_CMPLX_SET_P` (rule R219). -/
def execRdRstCmplxSetP (s : State) : Result := readRstCmplx (.rstCmplxSet .p) .p s

/-- `WR_RST_CMPLX_SET_P` (rule R220). -/
def execWrRstCmplxSetP (data : Word) (s : State) : Result := writeRstCmplxSet .p data s

/-- `RD_RST_CMPLX_CLR_P` (rule R219). -/
def execRdRstCmplxClrP (s : State) : Result := readRstCmplx (.rstCmplxClr .p) .p s

/-- `WR_RST_CMPLX_CLR_P` (rule R221). -/
def execWrRstCmplxClrP (data : Word) (s : State) : Result := writeRstCmplxClr .p data s

/-- `RD_RST_CMPLX_STATUS_P` (rule R223). -/
def execRdRstCmplxStatusP (s : State) : Result := readRstCmplxStatus .p s

/-- `WR_RST_CMPLX_STATUS_P` (rule R224). -/
def execWrRstCmplxStatusP (data : Word) (s : State) : Result := writeReg (.rstCmplxStatus .p) data s

/-- `RD_CPU_SOFTRST_CTRL_P` (rule R225). -/
def execRdCpuSoftrstCtrlP (s : State) : Result := readSoftRst .p s

/-- `WR_CPU_SOFTRST_CTRL_P` (rule R226). -/
def execWrCpuSoftrstCtrlP (data : Word) (s : State) : Result := writeSoftRst .p data s

/-- `RD_RST_CMPLX_SET_E` (rule R219). -/
def execRdRstCmplxSetE (s : State) : Result := readRstCmplx (.rstCmplxSet .e) .e s

/-- `WR_RST_CMPLX_SET_E` (rule R220). -/
def execWrRstCmplxSetE (data : Word) (s : State) : Result := writeRstCmplxSet .e data s

/-- `RD_RST_CMPLX_CLR_E` (rule R219). -/
def execRdRstCmplxClrE (s : State) : Result := readRstCmplx (.rstCmplxClr .e) .e s

/-- `WR_RST_CMPLX_CLR_E` (rule R221). -/
def execWrRstCmplxClrE (data : Word) (s : State) : Result := writeRstCmplxClr .e data s

/-- `RD_RST_CMPLX_STATUS_E` (rule R223). -/
def execRdRstCmplxStatusE (s : State) : Result := readRstCmplxStatus .e s

/-- `WR_RST_CMPLX_STATUS_E` (rule R224). -/
def execWrRstCmplxStatusE (data : Word) (s : State) : Result := writeReg (.rstCmplxStatus .e) data s

/-- `RD_CPU_SOFTRST_CTRL_E` (rule R225). -/
def execRdCpuSoftrstCtrlE (s : State) : Result := readSoftRst .e s

/-- `WR_CPU_SOFTRST_CTRL_E` (rule R226). -/
def execWrCpuSoftrstCtrlE (data : Word) (s : State) : Result := writeSoftRst .e data s

end Sys2Proof.Machine
end

