-- ==== Sys2Proof/Machine/PllController.lean ====
section
/-! DEFINITION. The commands of the PLL registers (`spec/40_pll_controller.md`). -/

namespace Sys2Proof.Machine

open Sys2Proof

/-- `RD_PLL_BASE_p` (rule R144). -/
def readPllBase (p : PllId) (s : State) : Result :=
  readReg (.pllBase p) (pllBaseWord s.cfg.map (s.pllBase.get p) (lockBit s p)) s

/-- The hazard of rule R145: a divider changes while the PLL is enabled before and after the write. -/
def reprogramsEnabled (old new : PllBase) : Bool :=
  old.enable && new.enable && !(new.divm == old.divm && new.divn == old.divn && new.divp == old.divp)

/-- `WR_PLL_BASE_p` (rules R145, R146). -/
def writePllBase (p : PllId) (data : Word) (s : State) : Result :=
  ifPresent (.pllBase p) s <|
    if reprogramsEnabled (s.pllBase.get p) (pllBaseOfWord s.cfg.map data) then raise (.pllReprogramWhileEnabled p)
    else store (.pllBase p) data s

/-- `RD_PLL_MISC_p` (rule R148). -/
def readPllMisc (p : PllId) (s : State) : Result := readReg (.pllMisc p) (pllMiscWord s.cfg.map (s.pllMisc.get p)) s

/-- `WR_PLL_MISC_p` (rule R149). -/
def writePllMisc (p : PllId) (data : Word) (s : State) : Result :=
  writeReg (.pllMisc p) data s

/-- The read of tap register `r` of PLL `p` (rule R150). -/
def readTaps (r : Reg) (p : PllId) (s : State) : Result :=
  readReg r (tapsWord (r.taps s.cfg) (tapAt (s.taps.get p))) s

/-- The hazard of rule R151 for tap `k` with its places: an enable changes and is on while the base output does not
run. -/
def tapHazard (s : State) (p : PllId) (data : Word) (x : Nat × TapPlaces) : Bool :=
  ((tapOfWord x.2 data).clken || (tapOfWord x.2 data).rstn) &&
    !((tapOfWord x.2 data).clken == (tapAt (s.taps.get p) x.1).clken &&
      (tapOfWord x.2 data).rstn == (tapAt (s.taps.get p) x.1).rstn) && !pllOutOk s p

/-- The write of tap register `r` of PLL `p`: the hazard of the first of its taps that has one (rule R151). DEDUCED (log
entry 6): the hazard leaves the taps before it stored (`storedAtFault`). -/
def writeTaps (r : Reg) (p : PllId) (data : Word) (s : State) : Result :=
  ifPresent r s <|
    match (r.taps s.cfg).find? (tapHazard s p data) with
    | some x => raise (.tapEnabledBeforeBase p x.1)
    | none => store r data s

/-- `RD_PLL_BASE_SYS` (rule R144). -/
def execRdPllBaseSys (s : State) : Result := readPllBase .sys s

/-- `WR_PLL_BASE_SYS` (rule R145). -/
def execWrPllBaseSys (data : Word) (s : State) : Result := writePllBase .sys data s

/-- `RD_PLL_MISC_SYS` (rule R148). -/
def execRdPllMiscSys (s : State) : Result := readPllMisc .sys s

/-- `WR_PLL_MISC_SYS` (rule R149). -/
def execWrPllMiscSys (data : Word) (s : State) : Result := writePllMisc .sys data s

/-- `RD_PLL_OUTA_SYS` (rule R150). -/
def execRdPllOutaSys (s : State) : Result := readTaps (.pllOutA .sys) .sys s

/-- `WR_PLL_OUTA_SYS` (rule R151). -/
def execWrPllOutaSys (data : Word) (s : State) : Result := writeTaps (.pllOutA .sys) .sys data s

/-- `RD_PLL_OUTB_SYS` (rule R150). -/
def execRdPllOutbSys (s : State) : Result := readTaps (.pllOutB .sys) .sys s

/-- `WR_PLL_OUTB_SYS` (rule R151). -/
def execWrPllOutbSys (data : Word) (s : State) : Result := writeTaps (.pllOutB .sys) .sys data s

/-- `RD_PLL_BASE_CPU` (rule R144). -/
def execRdPllBaseCpu (s : State) : Result := readPllBase .cpu s

/-- `WR_PLL_BASE_CPU` (rule R145). -/
def execWrPllBaseCpu (data : Word) (s : State) : Result := writePllBase .cpu data s

/-- `RD_PLL_MISC_CPU` (rule R148). -/
def execRdPllMiscCpu (s : State) : Result := readPllMisc .cpu s

/-- `WR_PLL_MISC_CPU` (rule R149). -/
def execWrPllMiscCpu (data : Word) (s : State) : Result := writePllMisc .cpu data s

/-- `RD_PLL_OUTA_CPU` (rule R150). -/
def execRdPllOutaCpu (s : State) : Result := readTaps (.pllOutA .cpu) .cpu s

/-- `WR_PLL_OUTA_CPU` (rule R151). -/
def execWrPllOutaCpu (data : Word) (s : State) : Result := writeTaps (.pllOutA .cpu) .cpu data s

/-- `RD_PLL_OUTB_CPU` (rule R150). -/
def execRdPllOutbCpu (s : State) : Result := readTaps (.pllOutB .cpu) .cpu s

/-- `WR_PLL_OUTB_CPU` (rule R151). -/
def execWrPllOutbCpu (data : Word) (s : State) : Result := writeTaps (.pllOutB .cpu) .cpu data s

/-- `RD_PLL_BASE_USB` (rule R144). -/
def execRdPllBaseUsb (s : State) : Result := readPllBase .usb s

/-- `WR_PLL_BASE_USB` (rule R145). -/
def execWrPllBaseUsb (data : Word) (s : State) : Result := writePllBase .usb data s

/-- `RD_PLL_MISC_USB` (rule R148). -/
def execRdPllMiscUsb (s : State) : Result := readPllMisc .usb s

/-- `WR_PLL_MISC_USB` (rule R149). -/
def execWrPllMiscUsb (data : Word) (s : State) : Result := writePllMisc .usb data s

/-- `RD_PLL_OUTA_USB` (rule R150). -/
def execRdPllOutaUsb (s : State) : Result := readTaps (.pllOutA .usb) .usb s

/-- `WR_PLL_OUTA_USB` (rule R151). -/
def execWrPllOutaUsb (data : Word) (s : State) : Result := writeTaps (.pllOutA .usb) .usb data s

/-- `RD_PLL_OUTB_USB` (rule R150). -/
def execRdPllOutbUsb (s : State) : Result := readTaps (.pllOutB .usb) .usb s

/-- `WR_PLL_OUTB_USB` (rule R151). -/
def execWrPllOutbUsb (data : Word) (s : State) : Result := writeTaps (.pllOutB .usb) .usb data s

end Sys2Proof.Machine
end

