-- ==== Sys2Proof/Machine/PowerPartition.lean ====
section
/-! DEFINITION. The commands of the power-gate, clamp and RAM-repair registers
(`spec/42_power_partition_fsm.md`). -/

namespace Sys2Proof.Machine

open Sys2Proof

/-- `RD_PWRGATE_TOGGLE` (rule R191). -/
def execRdPwrgateToggle (s : State) : Result :=
  readReg .pwrgateToggle (placeBit s.cfg.map.place.start (toggleBusy s) ||| putField s.cfg.map.place.partId s.partId) s

/-- The power dependency a toggle of partition `i` would break (rules R192, R202). -/
def breaksDependency (s : State) : Part → Bool
  | .rail => isPowered s .rail && (isPowered s .nonCpuP || isPowered s .cpu0P)
  | .nonCpuP => !isPowered s .nonCpuP && !isPowered s .rail
  | .cpu0P => !isPowered s .cpu0P && !isPowered s .rail
  | .nonCpuE | .cpuE => false

/-- `WR_PWRGATE_TOGGLE` (rule R192). DEDUCED (log entry 6): a hazard it raises leaves the new `PARTID` stored, its
refusal changes nothing (`storedAtFault`, `mark`). -/
def execWrPwrgateToggle (data : Word) (s : State) : Result :=
  ifPresent .pwrgateToggle s <|
    if !startsToggleWord s.cfg.map data then store .pwrgateToggle data s
    else
      match partOfId s.cfg.map (partIdOfWord s.cfg.map data) with
      | none => refuse .reservedPartition
      | some i =>
        if toggleBusy s then raise .toggleWhilePending
        else if breaksDependency s i then raise (.powerDependency i)
        else store .pwrgateToggle data s

/-- `RD_PWRGATE_STATUS` (rule R194). -/
def execRdPwrgateStatus (s : State) : Result := readReg .pwrgateStatus (partsWord s.cfg.map s.pwrStatus) s

/-- `WR_PWRGATE_STATUS` (rule R195). -/
def execWrPwrgateStatus (data : Word) (s : State) : Result := writeReg .pwrgateStatus data s

/-- `RD_REMOVE_CLAMPING_CMD` (rule R196). -/
def execRdRemoveClampingCmd (s : State) : Result := readReg .removeClampingCmd 0 s

/-- The lowest partition whose clamp the command would remove while it is off (rule R197). -/
def unpoweredClamp (s : State) (data : Word) : Option Part :=
  Part.all.find? (fun i => namesPart s.cfg.map data i && !isPowered s i)

/-- `WR_REMOVE_CLAMPING_CMD` (rule R197). DEDUCED (log entry 6): the hazard at one partition leaves the removals of the
lower ones pending (`storedAtFault`). -/
def execWrRemoveClampingCmd (data : Word) (s : State) : Result :=
  ifPresent .removeClampingCmd s <|
    match unpoweredClamp s data with
    | some i => raise (.clampRemovedUnpowered i)
    | none => store .removeClampingCmd data s

/-- `RD_RAM_REPAIR` (rule R199). -/
def execRdRamRepair (s : State) : Result :=
  readReg .ramRepair (placeBit s.cfg.map.place.repairSts s.ramSts ||| placeBit s.cfg.map.place.repairReq s.ramReq) s

/-- `WR_RAM_REPAIR` (rule R200). -/
def execWrRamRepair (data : Word) (s : State) : Result := writeReg .ramRepair data s

end Sys2Proof.Machine
end

