-- ==== Sys2Proof/Machine/SupportBlocks.lean ====
section
/-! DEFINITION. The commands of the timer, the oscillator registers and frequency detector, the fuses, the flow
controller field, the boot information record and the reset vector (`spec/44_support_blocks.md`). -/

namespace Sys2Proof.Machine

open Sys2Proof

/-- `RD_TMR_PTV`: the values last written; the running count is not readable (rule R248). -/
def execRdTmrPtv (s : State) : Result :=
  readReg .tmrPtv (placeBit s.cfg.map.place.tmrEn s.tmrEn ||| putField s.cfg.map.place.ptv s.tmrPtv) s

/-- `WR_TMR_PTV` (rule R246). -/
def execWrTmrPtv (data : Word) (s : State) : Result :=
  ifPresent .tmrPtv s <|
    if s.cfg.tmrMax < (ptvOfWord s.cfg.map data).toNat then refuse .timerSpan
    else store .tmrPtv data s

/-- `RD_TMR_STS`: the read does not clear `EXPIRED` (rule R265). -/
def execRdTmrSts (s : State) : Result := readReg .tmrSts (placeBit s.cfg.map.place.expired s.tmrExpired) s

/-- `WR_TMR_STS` (rule R273). -/
def execWrTmrSts (data : Word) (s : State) : Result := writeReg .tmrSts data s

/-- `RD_TIMERUS_USEC_CFG` (rule R250). -/
def execRdTimerusUsecCfg (s : State) : Result :=
  readReg .timerusUsecCfg
    (putField s.cfg.map.place.usecDividend s.usecDividend ||| putField s.cfg.map.place.usecDivisor s.usecDivisor) s

/-- `WR_TIMERUS_USEC_CFG` (rule R266). -/
def execWrTimerusUsecCfg (data : Word) (s : State) : Result := writeReg .timerusUsecCfg data s

/-- `RD_OSC_CTRL` (rule R253). -/
def execRdOscCtrl (s : State) : Result :=
  readReg .oscCtrl (putField s.cfg.map.place.pllRefDiv s.pllRefDiv ||| putField s.cfg.map.place.oscFreq s.oscFreq) s

/-- `WR_OSC_CTRL` (rule R267). -/
def execWrOscCtrl (data : Word) (s : State) : Result := writeReg .oscCtrl data s

/-- `RD_OSC_FREQ_DET`: `START` reads 0 (rule R268). -/
def execRdOscFreqDet (s : State) : Result := readReg .oscFreqDet (putField s.cfg.map.place.refClkWin s.refClkWin) s

/-- `WR_OSC_FREQ_DET` (rule R254). -/
def execWrOscFreqDet (data : Word) (s : State) : Result := writeReg .oscFreqDet data s

/-- `RD_OSC_FREQ_DET_STATUS` (rule R256). -/
def execRdOscFreqDetStatus (s : State) : Result :=
  readReg .oscFreqDetStatus
    (placeBit s.cfg.map.place.detBusy s.detBusy ||| putField s.cfg.map.place.detCount s.detCount) s

/-- `WR_OSC_FREQ_DET_STATUS` (rule R271). -/
def execWrOscFreqDetStatus (data : Word) (s : State) : Result := writeReg .oscFreqDetStatus data s

/-- The read value of `BOND_OUT` (rules R44, R259). -/
def bondOutWord (s : State) : Word :=
  placeBit s.cfg.map.place.effBondedOut s.effBondedOut ||| placeBit s.cfg.map.place.perfBondedOut s.perfBondedOut

/-- `RD_BOND_OUT` (rule R259). -/
def execRdBondOut (s : State) : Result := readReg .bondOut (bondOutWord s) s

/-- `WR_BOND_OUT` (rule R272). -/
def execWrBondOut (data : Word) (s : State) : Result := writeReg .bondOut data s

/-- The read value of `CPU_DISABLE` (rules R45, R260). -/
def cpuDisableWord (s : State) : Word := placeBit s.cfg.map.place.cpuDisable s.cpuDisable

/-- `RD_CPU_DISABLE` (rule R260). -/
def execRdCpuDisable (s : State) : Result := readReg .cpuDisable (cpuDisableWord s) s

/-- `WR_CPU_DISABLE` (rule R272). -/
def execWrCpuDisable (data : Word) (s : State) : Result := writeReg .cpuDisable data s

/-- `RD_CLUSTER_CONTROL` (rule R261). -/
def execRdClusterControl (s : State) : Result :=
  readReg .clusterControl (placeBit s.cfg.map.place.activeCluster (clusterBit s.cfg.map s.activeCluster)) s

/-- `WR_CLUSTER_CONTROL` (rule R269). -/
def execWrClusterControl (data : Word) (s : State) : Result :=
  ifPresent .clusterControl s <|
    if clusterOfWord s.cfg.map data == .e && !s.cfg.dualCluster then refuse .singleCluster
    else store .clusterControl data s

/-- `RD_RESET_VECTOR` (rule R263). -/
def execRdResetVector (s : State) : Result := readReg .resetVector s.resetVector s

/-- `WR_RESET_VECTOR` (rule R270). -/
def execWrResetVector (data : Word) (s : State) : Result := writeReg .resetVector data s

/-- `RD_SIG_VERSION` (rule R262). -/
def execRdSigVersion (s : State) : Result := readReg .sigVersion s.bir.sigVersion s

/-- `RD_SIG_DATA_VERSION` (rule R262). -/
def execRdSigDataVersion (s : State) : Result := readReg .sigDataVersion s.bir.sigDataVersion s

/-- The record's word that holds the oscillator code (rules R49, R262). -/
def birOscFreqWord (s : State) : Word := putField s.cfg.map.place.birOscFreq s.bir.oscFreq

/-- `RD_OSC_FREQ`: the record's oscillator code (rule R262). -/
def execRdOscFreq (s : State) : Result := readReg .birOscFreq (birOscFreqWord s) s

/-- `RD_BOOT_TYPE` (rule R262). -/
def execRdBootType (s : State) : Result := readReg .bootType s.bir.bootType s

/-- The record's flags word (rules R49, R262). -/
def birFlagsWord (s : State) : Word :=
  placeBit s.cfg.map.place.devInit s.bir.devInit ||| placeBit s.cfg.map.place.sdramInit s.bir.sdramInit

/-- `RD_FLAGS` (rule R262). -/
def execRdFlags (s : State) : Result :=
  readReg .flags (birFlagsWord s) s

/-- A write to the boot information record is refused: "this core performs read-only consumption" (rules R89,
R274). -/
def refuseBootRecord (r : Reg) : Result := refuse (.bootRecordWrite r)

/-- `WR_SIG_VERSION` (rule R274). -/
def execWrSigVersion (_data : Word) (_s : State) : Result := refuseBootRecord .sigVersion

/-- `WR_SIG_DATA_VERSION` (rule R274). -/
def execWrSigDataVersion (_data : Word) (_s : State) : Result := refuseBootRecord .sigDataVersion

/-- `WR_OSC_FREQ` (rule R274). -/
def execWrOscFreq (_data : Word) (_s : State) : Result := refuseBootRecord .birOscFreq

/-- `WR_BOOT_TYPE` (rule R274). -/
def execWrBootType (_data : Word) (_s : State) : Result := refuseBootRecord .bootType

/-- `WR_FLAGS` (rule R274). -/
def execWrFlags (_data : Word) (_s : State) : Result := refuseBootRecord .flags

end Sys2Proof.Machine
end

