-- ==== Sys2Proof/Machine/Dispatch.lean ====
section
/-! DEFINITION. One arm per command: each calls the meaning of its own. -/

namespace Sys2Proof.Machine

open Sys2Proof

def exec (i : Instr) (s : State) : Host.Outcome State Fault Refusal :=
  match i with
  | .rdOscCtrl => Sys2Proof.Machine.execRdOscCtrl s
  | .wrOscCtrl data => Sys2Proof.Machine.execWrOscCtrl data s
  | .rdOscFreqDet => Sys2Proof.Machine.execRdOscFreqDet s
  | .wrOscFreqDet data => Sys2Proof.Machine.execWrOscFreqDet data s
  | .rdOscFreqDetStatus => Sys2Proof.Machine.execRdOscFreqDetStatus s
  | .wrOscFreqDetStatus data => Sys2Proof.Machine.execWrOscFreqDetStatus data s
  | .rdSclkBurstPolicy => Sys2Proof.Machine.execRdSclkBurstPolicy s
  | .wrSclkBurstPolicy data => Sys2Proof.Machine.execWrSclkBurstPolicy data s
  | .rdSclkDivider => Sys2Proof.Machine.execRdSclkDivider s
  | .wrSclkDivider data => Sys2Proof.Machine.execWrSclkDivider data s
  | .rdCclkBurstPolicy => Sys2Proof.Machine.execRdCclkBurstPolicy s
  | .wrCclkBurstPolicy data => Sys2Proof.Machine.execWrCclkBurstPolicy data s
  | .rdCclkDivider => Sys2Proof.Machine.execRdCclkDivider s
  | .wrCclkDivider data => Sys2Proof.Machine.execWrCclkDivider data s
  | .rdClkEnb => Sys2Proof.Machine.execRdClkEnb s
  | .wrClkEnb data => Sys2Proof.Machine.execWrClkEnb data s
  | .rdRstDevSet => Sys2Proof.Machine.execRdRstDevSet s
  | .wrRstDevSet data => Sys2Proof.Machine.execWrRstDevSet data s
  | .rdRstDevClr => Sys2Proof.Machine.execRdRstDevClr s
  | .wrRstDevClr data => Sys2Proof.Machine.execWrRstDevClr data s
  | .rdRstCmplxSetP => Sys2Proof.Machine.execRdRstCmplxSetP s
  | .wrRstCmplxSetP data => Sys2Proof.Machine.execWrRstCmplxSetP data s
  | .rdRstCmplxClrP => Sys2Proof.Machine.execRdRstCmplxClrP s
  | .wrRstCmplxClrP data => Sys2Proof.Machine.execWrRstCmplxClrP data s
  | .rdRstCmplxStatusP => Sys2Proof.Machine.execRdRstCmplxStatusP s
  | .wrRstCmplxStatusP data => Sys2Proof.Machine.execWrRstCmplxStatusP data s
  | .rdCpuSoftrstCtrlP => Sys2Proof.Machine.execRdCpuSoftrstCtrlP s
  | .wrCpuSoftrstCtrlP data => Sys2Proof.Machine.execWrCpuSoftrstCtrlP data s
  | .rdRstCmplxSetE => Sys2Proof.Machine.execRdRstCmplxSetE s
  | .wrRstCmplxSetE data => Sys2Proof.Machine.execWrRstCmplxSetE data s
  | .rdRstCmplxClrE => Sys2Proof.Machine.execRdRstCmplxClrE s
  | .wrRstCmplxClrE data => Sys2Proof.Machine.execWrRstCmplxClrE data s
  | .rdRstCmplxStatusE => Sys2Proof.Machine.execRdRstCmplxStatusE s
  | .wrRstCmplxStatusE data => Sys2Proof.Machine.execWrRstCmplxStatusE data s
  | .rdCpuSoftrstCtrlE => Sys2Proof.Machine.execRdCpuSoftrstCtrlE s
  | .wrCpuSoftrstCtrlE data => Sys2Proof.Machine.execWrCpuSoftrstCtrlE data s
  | .rdPllBaseSys => Sys2Proof.Machine.execRdPllBaseSys s
  | .wrPllBaseSys data => Sys2Proof.Machine.execWrPllBaseSys data s
  | .rdPllMiscSys => Sys2Proof.Machine.execRdPllMiscSys s
  | .wrPllMiscSys data => Sys2Proof.Machine.execWrPllMiscSys data s
  | .rdPllOutaSys => Sys2Proof.Machine.execRdPllOutaSys s
  | .wrPllOutaSys data => Sys2Proof.Machine.execWrPllOutaSys data s
  | .rdPllOutbSys => Sys2Proof.Machine.execRdPllOutbSys s
  | .wrPllOutbSys data => Sys2Proof.Machine.execWrPllOutbSys data s
  | .rdPllBaseCpu => Sys2Proof.Machine.execRdPllBaseCpu s
  | .wrPllBaseCpu data => Sys2Proof.Machine.execWrPllBaseCpu data s
  | .rdPllMiscCpu => Sys2Proof.Machine.execRdPllMiscCpu s
  | .wrPllMiscCpu data => Sys2Proof.Machine.execWrPllMiscCpu data s
  | .rdPllOutaCpu => Sys2Proof.Machine.execRdPllOutaCpu s
  | .wrPllOutaCpu data => Sys2Proof.Machine.execWrPllOutaCpu data s
  | .rdPllOutbCpu => Sys2Proof.Machine.execRdPllOutbCpu s
  | .wrPllOutbCpu data => Sys2Proof.Machine.execWrPllOutbCpu data s
  | .rdPllBaseUsb => Sys2Proof.Machine.execRdPllBaseUsb s
  | .wrPllBaseUsb data => Sys2Proof.Machine.execWrPllBaseUsb data s
  | .rdPllMiscUsb => Sys2Proof.Machine.execRdPllMiscUsb s
  | .wrPllMiscUsb data => Sys2Proof.Machine.execWrPllMiscUsb data s
  | .rdPllOutaUsb => Sys2Proof.Machine.execRdPllOutaUsb s
  | .wrPllOutaUsb data => Sys2Proof.Machine.execWrPllOutaUsb data s
  | .rdPllOutbUsb => Sys2Proof.Machine.execRdPllOutbUsb s
  | .wrPllOutbUsb data => Sys2Proof.Machine.execWrPllOutbUsb data s
  | .rdResetVector => Sys2Proof.Machine.execRdResetVector s
  | .wrResetVector data => Sys2Proof.Machine.execWrResetVector data s
  | .rdPwrgateToggle => Sys2Proof.Machine.execRdPwrgateToggle s
  | .wrPwrgateToggle data => Sys2Proof.Machine.execWrPwrgateToggle data s
  | .rdPwrgateStatus => Sys2Proof.Machine.execRdPwrgateStatus s
  | .wrPwrgateStatus data => Sys2Proof.Machine.execWrPwrgateStatus data s
  | .rdRemoveClampingCmd => Sys2Proof.Machine.execRdRemoveClampingCmd s
  | .wrRemoveClampingCmd data => Sys2Proof.Machine.execWrRemoveClampingCmd data s
  | .rdClusterControl => Sys2Proof.Machine.execRdClusterControl s
  | .wrClusterControl data => Sys2Proof.Machine.execWrClusterControl data s
  | .rdRamRepair => Sys2Proof.Machine.execRdRamRepair s
  | .wrRamRepair data => Sys2Proof.Machine.execWrRamRepair data s
  | .rdBondOut => Sys2Proof.Machine.execRdBondOut s
  | .wrBondOut data => Sys2Proof.Machine.execWrBondOut data s
  | .rdCpuDisable => Sys2Proof.Machine.execRdCpuDisable s
  | .wrCpuDisable data => Sys2Proof.Machine.execWrCpuDisable data s
  | .rdTmrPtv => Sys2Proof.Machine.execRdTmrPtv s
  | .wrTmrPtv data => Sys2Proof.Machine.execWrTmrPtv data s
  | .rdTmrSts => Sys2Proof.Machine.execRdTmrSts s
  | .wrTmrSts data => Sys2Proof.Machine.execWrTmrSts data s
  | .rdTimerusUsecCfg => Sys2Proof.Machine.execRdTimerusUsecCfg s
  | .wrTimerusUsecCfg data => Sys2Proof.Machine.execWrTimerusUsecCfg data s
  | .rdSigVersion => Sys2Proof.Machine.execRdSigVersion s
  | .wrSigVersion data => Sys2Proof.Machine.execWrSigVersion data s
  | .rdSigDataVersion => Sys2Proof.Machine.execRdSigDataVersion s
  | .wrSigDataVersion data => Sys2Proof.Machine.execWrSigDataVersion data s
  | .rdOscFreq => Sys2Proof.Machine.execRdOscFreq s
  | .wrOscFreq data => Sys2Proof.Machine.execWrOscFreq data s
  | .rdBootType => Sys2Proof.Machine.execRdBootType s
  | .wrBootType data => Sys2Proof.Machine.execWrBootType data s
  | .rdFlags => Sys2Proof.Machine.execRdFlags s
  | .wrFlags data => Sys2Proof.Machine.execWrFlags data s

end Sys2Proof.Machine
end

