-- ==== Sys2Proof/Machine/Bus.lean ====
section
/-! DEFINITION. The master's bus: a transaction word or an access is decoded and run, or refused (rules R10, R81,
R83, R84, R85, R88, R108); and the byte view of the boot information record (rule R82). -/

namespace Sys2Proof.Machine

open Sys2Proof

/-- Run what the decoder found; what it rejects is refused (rules R108, R109). -/
def busCommand (found : Except DecodeError Instr) (s : State) : Result :=
  match found with
  | .ok i => exec i s
  | .error e => refuse (.badTransaction e)

/-- A transaction word, as stored bytes, is issued (rules R100, R108). -/
def busWord (bytes : List Byte) (s : State) : Result := busCommand (decode s.cfg bytes) s

/-- An access of `width` bytes; any other width than 4 is refused (rule R81). -/
def busAccess (width : Nat) (write : Bool) (addr data : Word) (s : State) : Result :=
  if width ≠ 4 then refuse .unsupportedWidth else busCommand (decodeAccess s.cfg write addr data) s

/-- `MemRead(addr, width)` (rules R10, R84). -/
def memRead (addr : Word) (width : Nat) (s : State) : Result := busAccess width false addr 0 s

/-- `MemWrite(addr, width, v)` (rules R10, R85). -/
def memWrite (addr : Word) (width : Nat) (v : Word) (s : State) : Result := busAccess width true addr v s

/-- The five words of the boot information record (rule R49). -/
def bootRecordWords (s : State) : List Word :=
  [s.bir.sigVersion, s.bir.sigDataVersion, birOscFreqWord s, s.bir.bootType, birFlagsWord s]

/-- A dump of the boot information record, byte 0 of a word being its bits [7:0] (rule R82). -/
def bootRecordBytes (s : State) : List Byte := (bootRecordWords s).flatMap (fun w => bytesOfNat 4 w.toNat)

end Sys2Proof.Machine
end

