-- ==== Sys2Proof/Machine/Procedures.lean ====
section
/-! DEFINITION. The driving procedures of `spec/45_boot_sequencer.md` and rules R111, R249, R258 as statement lists
of the master. `CALL` is textual expansion (rule R297); tests of the configuration are made when the list is built,
tests of the master's variables when it is run. Every field layout and mask is that of the configuration's map. -/

namespace Sys2Proof.Machine

open Sys2Proof

/-- `RD REG`. -/
def rdOp (r : Reg) : Op := .cmd (.rd r)

/-- `WR REG, value`. -/
def wrOp (r : Reg) (value : Expr) : Op := .cmd (.wr r value)

/-- `POLL REG, mask, want`: unbounded (rule R111). -/
def pollOp (r : Reg) (mask want : Word) : Op := .cmd (.poll r mask want)

/-- `POST 'c'`. -/
def postOp (ch : Byte) : Op := .cmd (.post ch)

/-- `ASSERT cond, 'c'` (rules R111, R324). -/
def assertOp (c : Cond) (ch : Byte) : Op := .ctl (.assert c ch)

/-- An assignment to a variable of the master. -/
def letOp (a : Assign) : Op := .ctl (.assign a)

/-- `if cond then body`. -/
def ifOps (c : Cond) (body : List Op) : List Op := .ctl (.skipIf (.neg c) body.length) :: body

/-- `if cond then body else other`. -/
def ifElseOps (c : Cond) (body other : List Op) : List Op :=
  .ctl (.skipIf (.neg c) (body.length + 1)) :: body ++ .ctl (.skipIf .always other.length) :: other

/-- `SETB REG, mask` (rule R111). -/
def setbOps (r : Reg) (mask : Word) : List Op := [rdOp r, wrOp r (.bor .scratch (.lit mask))]

/-- `CLRB REG, mask` (rule R111). -/
def clrbOps (r : Reg) (mask : Word) : List Op := [rdOp r, wrOp r (.band .scratch (.bnot (.lit mask)))]

/-- One wait of `ticks` ticks: start the countdown, poll `EXPIRED` (rule R249). -/
def waitTicks (m : RegMap) (ticks : Nat) : List Op :=
  [wrOp .tmrPtv (.lit (placeBit m.place.tmrEn true ||| putField m.place.ptv (BitVec.ofNat 32 ticks))),
    pollOp .tmrSts (placeBit m.place.expired true) (placeBit m.place.expired true)]

/-- `C = TMR_MAX − 1`, the ticks a maximum-span wait is guaranteed to last (rule R249). -/
def stallSpan (cfg : Config) : Nat := cfg.tmrMax - 1

/-- `stall_us(d)`, also `STALL d` (rule R249). -/
def stallUs (cfg : Config) (d : Nat) : List Op :=
  (List.replicate (d / stallSpan cfg) (waitTicks cfg.map cfg.tmrMax)).flatten ++
    waitTicks cfg.map (d % stallSpan cfg + 1)

/-- `stall_ms(m)` (rule R249). -/
def stallMs (cfg : Config) (m : Nat) : List Op := stallUs cfg (1000 * m)

/-- The two flags of the boot information record (rules R49, R258). -/
def flagsMask (m : RegMap) : Word := placeBit m.place.sdramInit true ||| placeBit m.place.devInit true

/-- `getOscFreq()`: the code goes to the master's `oscFreq` (rule R258). -/
def getOscFreq (cfg : Config) : List Op :=
  rdOp .flags ::
    ifElseOps (.neg (.scratchIs (flagsMask cfg.map) 0))
      [rdOp .oscCtrl, letOp .oscFromCtrl, rdOp .birOscFreq, assertOp .oscAgrees cfg.posts.bootRecord]
      [wrOp .oscFreqDet
          (.lit (placeBit cfg.map.place.detStart true ||| putField cfg.map.place.refClkWin cfg.fdWin)),
        pollOp .oscFreqDetStatus (placeBit cfg.map.place.detBusy true) 0, letOp .oscFromCount]

/-- `lookup(oscFreq)`: no transaction; the record is read where it is used (rule R276). -/
def lookup (cfg : Config) : List Op := [assertOp .oscSupported cfg.posts.frequency]

/-- `PLL_BASE.ENABLE` as a word (rules R35, R280). -/
def enableMask (m : RegMap) : Word := placeBit m.place.pll.enable true

/-- `PLL_BASE.BYPASS` as a word (rules R35, R280). -/
def bypassMask (m : RegMap) : Word := placeBit m.place.pll.bypass true

/-- `PLL_BASE.LOCK` as a word (rules R35, R281). -/
def lockMask (m : RegMap) : Word := placeBit m.place.pll.lock true

/-- `PLL_MISC.LOCK_ENABLE` as a word (rules R36, R279). -/
def lockEnableMask (m : RegMap) : Word := placeBit m.place.lockEnable true

/-- `program`, steps 1 to 3 (rule R280). -/
def programEnable (cfg : Config) (p : PllId) : List Op :=
  [wrOp (.pllBase p) (.bor (.lit (bypassMask cfg.map)) (.pllDiv p)),
    wrOp (.pllMisc p) (.pllMiscWord p),
    match cfg.bypassClearPhase.get p with
    | .withEnable => wrOp (.pllBase p) (.bor (.lit (enableMask cfg.map)) (.pllDiv p))
    | .afterLock => wrOp (.pllBase p) (.bor (.lit (bypassMask cfg.map ||| enableMask cfg.map)) (.pllDiv p))]

/-- `program`, step 4: the wait (rule R281). -/
def programWait (cfg : Config) (p : PllId) : List Op :=
  match cfg.lockStrategy.get p with
  | .pollLock => [pollOp (.pllBase p) (lockMask cfg.map) (lockMask cfg.map)]
  | .fixedDelay => stallUs cfg (cfg.pllStabUs.get p)

/-- `program`, step 4': the late bypass clear (rule R281). -/
def programBypass (cfg : Config) (p : PllId) : List Op :=
  match cfg.bypassClearPhase.get p with
  | .withEnable => []
  | .afterLock => [wrOp (.pllBase p) (.bor (.lit (enableMask cfg.map)) (.pllDiv p))]

/-- `R`: `TAP_RATIO[p][k]` in its place, for every tap of PLL `p` that register `r` holds (rule R282). -/
def tapRatiosWord (cfg : Config) (p : PllId) (r : Reg) : Word :=
  tapsWord (r.taps cfg) (fun k => { rstn := false, clken := false, ratio := (cfg.tapRatio.get p).getD k 0 })

/-- `E`: the two enables of the same taps in their places (rule R282). -/
def tapEnablesWord (cfg : Config) (r : Reg) : Word :=
  tapsWord (r.taps cfg) (fun _ => { rstn := true, clken := true, ratio := 0 })

/-- The two writes of a tap register that has a tap of the PLL (rule R282). -/
def programTapReg (cfg : Config) (p : PllId) (r : Reg) : List Op :=
  if (r.taps cfg).isEmpty then []
  else
    [wrOp r (.lit (tapRatiosWord cfg p r)), wrOp r (.lit (tapRatiosWord cfg p r ||| tapEnablesWord cfg r))]

/-- `program`, step 5: the taps (rule R282). -/
def programTaps (cfg : Config) (p : PllId) : List Op :=
  programTapReg cfg p (.pllOutA p) ++ programTapReg cfg p (.pllOutB p)

/-- The bits of `PLL_BASE` the already-enabled test looks at: `ENABLE`, and `BYPASS` when `CHECK_BYPASS` (rule
R279). -/
def enabledTestMask (cfg : Config) (p : PllId) : Word :=
  if cfg.checkBypass.get p then bypassMask cfg.map ||| enableMask cfg.map else enableMask cfg.map

/-- `program(p, oscFreq)` (rules R278 to R282). -/
def programPll (cfg : Config) (p : PllId) : List Op :=
  rdOp (.pllBase p) ::
    ifElseOps (.scratchIs (enabledTestMask cfg p) (enableMask cfg.map))
      (rdOp (.pllMisc p) ::
        ifOps (.scratchIs (lockEnableMask cfg.map) 0)
          [wrOp (.pllMisc p) (.bor .scratch (.lit (lockEnableMask cfg.map)))])
      (programEnable cfg p ++ programWait cfg p ++ programBypass cfg p ++ programTaps cfg p)

/-- `switchSystemClockSource(src)` (rule R283). -/
def switchSystemClockSource (cfg : Config) (src : Word) : List Op :=
  [wrOp .sclkBurstPolicy (.lit (putField cfg.map.place.sysSrc src)), wrOp .sclkDivider (.lit cfg.sclkDivConst)]

/-- `setCpuClockSource(src)` (rule R284). -/
def setCpuClockSource (cfg : Config) (src : Word) : List Op :=
  [wrOp .cclkBurstPolicy (.lit (putField cfg.map.place.cpuSrc src)), wrOp .cclkDivider (.lit cfg.cclkDivConst)]

/-- The five peripherals in `CLK_ENB` and `RST_DEV` (rules R106, R285). -/
def peripheralMask (m : RegMap) : Word := gatesWord m periphGates

/-- `COMPLEX_MASK` in `RST_DEV`, and the CPU gate's bit of `CLK_ENB` (rules R106, R107, R286). -/
def cpuMask (m : RegMap) : Word := gatesWord m cpuGateOnly

/-- `enablePeripheralClockGates()` (rule R285). -/
def enablePeripheralClockGates (m : RegMap) : List Op :=
  [wrOp .rstDevClr (.lit (peripheralMask m)), pollOp .rstDevClr (peripheralMask m) 0] ++
    setbOps .clkEnb (peripheralMask m)

/-- `disableCpuClockGate()` (rule R286). -/
def disableCpuClockGate (m : RegMap) : List Op := clrbOps .clkEnb (cpuMask m)

/-- `enableCpuClockGate()` (rule R286). -/
def enableCpuClockGate (m : RegMap) : List Op := setbOps .clkEnb (cpuMask m)

/-- `bootCluster <- CALL queryBootCluster()` (rule R287). -/
def queryBootCluster : List Op := [rdOp .bondOut, letOp .fuseWord, rdOp .cpuDisable, letOp .bootCluster]

/-- `c <- CALL queryActiveCluster()` (rule R288). -/
def queryActiveCluster : List Op := [rdOp .clusterControl, letOp .activeCluster]

/-- `powerUp(i)` (rule R289). -/
def powerUp (m : RegMap) (i : Part) : List Op :=
  rdOp .pwrgateStatus ::
    ifOps (.neg (.scratchIs (partMask m i) (partMask m i)))
      [wrOp .pwrgateToggle
          (.lit (placeBit m.place.start true ||| putField m.place.partId (BitVec.ofNat 32 (m.partId.get i)))),
        pollOp .pwrgateStatus (partMask m i) (partMask m i)]

/-- `ramRepair()` (rule R290). -/
def repairRam (cfg : Config) : List Op :=
  if cfg.ramRepairPresent then
    [wrOp .ramRepair (.lit (placeBit cfg.map.place.repairReq true)),
      pollOp .ramRepair (placeBit cfg.map.place.repairSts true) (placeBit cfg.map.place.repairSts true)]
  else []

/-- `powerUpCluster(c)` (rule R291). -/
def powerUpCluster (cfg : Config) : Cluster → List Op
  | .p => powerUp cfg.map .rail ++ repairRam cfg ++ powerUp cfg.map .nonCpuP ++ powerUp cfg.map .cpu0P
  | .e => powerUp cfg.map .nonCpuE ++ powerUp cfg.map .cpuE

/-- `removeIoClamps(c)` (rule R292). -/
def removeIoClamps (cfg : Config) (c : Cluster) : List Op :=
  (clusterParts c).map (fun i => wrOp .removeClampingCmd (.lit (partMask cfg.map i))) ++ stallUs cfg cfg.clampSettleUs

/-- `SECONDARY_MASK[c]` (rule R107). -/
def secondaryMask (cfg : Config) (c : Cluster) : Word :=
  linesWord cfg.map (secondaryLines cfg.masks.secondary (cfg.ncores.get c))

/-- The part of `holdAllSecondaryCoresInReset` for one cluster (rule R293). -/
def holdSecondary (cfg : Config) (c : Cluster) : List Op :=
  if secondaryMask cfg c = 0 then [] else [wrOp (.rstCmplxSet c) (.lit (secondaryMask cfg c))]

/-- `holdAllSecondaryCoresInReset()` (rule R293). -/
def holdAllSecondaryCoresInReset (cfg : Config) : List Op :=
  holdSecondary cfg .p ++ if cfg.dualCluster then holdSecondary cfg .e else []

/-- `CORE0_ASSERT_MASK` (rule R107). -/
def core0AssertMask (cfg : Config) : Word := linesWord cfg.map (.ofKinds cfg.masks.assert 1)

/-- `CORE0_RELEASE_MASK` (rule R107, conflict C3). -/
def core0ReleaseMask (cfg : Config) : Word := linesWord cfg.map (.ofKinds cfg.masks.release 1)

/-- `NONCPU` (rule R107). -/
def nonCpuMask (m : RegMap) : Word := linesWord m nonCpuLine

/-- The commands of `assertCore0AndNonCpuReset` for active cluster `c` (rule R294). -/
def assertCore0 (cfg : Config) (c : Cluster) : List Op :=
  [wrOp (.rstCmplxSet c) (.lit (core0AssertMask cfg)), wrOp .rstDevSet (.lit (cpuMask cfg.map)),
    pollOp (.rstCmplxSet c) (core0AssertMask cfg) (core0AssertMask cfg),
    pollOp .rstDevSet (cpuMask cfg.map) (cpuMask cfg.map)]

/-- `assertCore0AndNonCpuReset()` (rule R294). -/
def assertCore0AndNonCpuReset (cfg : Config) : List Op :=
  queryActiveCluster ++ ifElseOps (.activeIs .p) (assertCore0 cfg .p) (assertCore0 cfg .e)

/-- Release step 3, the mirror of the soft-reset control register (rule R295). -/
def mirrorSoftReset (cfg : Config) (c : Cluster) : List Op :=
  if cfg.dualCluster then
    match cfg.mirrorDirection with
    | .activeToOther => [rdOp (.cpuSoftrstCtrl c), wrOp (.cpuSoftrstCtrl c.other) .scratch]
    | .otherToActive => [rdOp (.cpuSoftrstCtrl c.other), wrOp (.cpuSoftrstCtrl c) .scratch]
  else []

/-- Release step 4, the cross-cluster clear (rule R295). -/
def clearOtherNonCpu (cfg : Config) (c : Cluster) : List Op :=
  if cfg.dualCluster && cfg.crossClusterClear then [wrOp (.rstCmplxClr c.other) (.lit (nonCpuMask cfg.map))] else []

/-- Release steps 0 to 5 for active cluster `c` (rule R295). -/
def releaseCore0 (cfg : Config) (c : Cluster) : List Op :=
  [wrOp .rstDevClr (.lit (cpuMask cfg.map)), wrOp (.rstCmplxClr c) (.lit (nonCpuMask cfg.map)),
    pollOp (.rstCmplxStatus c) (placeBit cfg.map.place.nonCpuInReset true) 0] ++
    mirrorSoftReset cfg c ++ clearOtherNonCpu cfg c ++ [wrOp (.rstCmplxClr c) (.lit (core0ReleaseMask cfg))]

/-- `releaseCore0AndNonCpuReset()` (rule R295). -/
def releaseCore0AndNonCpuReset (cfg : Config) : List Op :=
  queryActiveCluster ++ ifElseOps (.activeIs .p) (releaseCore0 cfg .p) (releaseCore0 cfg .e)

/-- The end of a transition: `seq` moves on and the progress character is posted (rule R300). -/
def endTransition (ch : Byte) : List Op := [.ctl .advance, postOp ch]

/-- Transition 1, `Init → ClusterSelected` (rule R301). The `refuse` on `Unknown` is the statement
`Cmd.refuseUnknown`, a master step of its own after the `Post` of `'U'`: a hardware agent may step between the two
(DESIGN CHOICE, log entry 12). -/
def transition1 (cfg : Config) : List Op :=
  queryBootCluster ++ assertOp (.neg (.bootIs .unknown)) cfg.posts.unknownCluster ::
    ifOps (.bootIs .unknown) [.cmd .refuseUnknown] ++ wrOp .clusterControl .bootField ::
    endTransition cfg.posts.clusterSelected

/-- Transition 2, `ClusterSelected → ClocksRunning` (rule R302). -/
def transition2 (cfg : Config) : List Op :=
  getOscFreq cfg ++ lookup cfg ++ [wrOp .timerusUsecCfg .usecConst, wrOp .oscCtrl .oscNote] ++ programPll cfg .sys ++
    switchSystemClockSource cfg cfg.sysBootSrc ++ programPll cfg .cpu ++ setCpuClockSource cfg cfg.cpuBootSrc ++
    enablePeripheralClockGates cfg.map ++ disableCpuClockGate cfg.map ++
    endTransition cfg.posts.clocksRunning

/-- Transition 3, `ClocksRunning → PowerApplied` (rule R303). -/
def transition3 (cfg : Config) : List Op :=
  ifElseOps (.bootIs .performance) (powerUpCluster cfg .p ++ removeIoClamps cfg .p)
    (powerUpCluster cfg .e ++ removeIoClamps cfg .e) ++ endTransition cfg.posts.powerApplied

/-- Transition 4, `PowerApplied → ResetReleased` (rule R304). -/
def transition4 (cfg : Config) : List Op :=
  holdAllSecondaryCoresInReset cfg ++ assertCore0AndNonCpuReset cfg ++ enableCpuClockGate cfg.map ++
    releaseCore0AndNonCpuReset cfg ++ endTransition cfg.posts.resetReleased

/-- Transition 5, `ResetReleased → HandedOff` (rule R305). -/
def transition5 (cfg : Config) : List Op :=
  ifOps .vectorGiven [wrOp .resetVector .vectorArg] ++ endTransition cfg.posts.handedOff

/-- `runBootSequencer`: transitions 1 to 5 in order, once (rule R306). -/
def bootProgram (cfg : Config) : List Op :=
  transition1 cfg ++ transition2 cfg ++ transition3 cfg ++ transition4 cfg ++ transition5 cfg

end Sys2Proof.Machine
end

