-- ==== Sys2Proof/Machine/Master.lean ====
section
/-! DEFINITION. The master: its expressions, conditions and assignments, the statements it runs, one step of it, and
the entry point `runBootSequencer` (rules R60, R110, R111, R275, R287, R288, R300, R306, R324, R331). -/

namespace Sys2Proof.Machine

open Sys2Proof

/-- `eff_selected(b)` (rule R287). -/
def effSelected (cfg : Config) (b : Word) : Bool :=
  match cfg.effSelectPolarity with
  | .literal => b.getLsbD cfg.map.place.effBondedOut
  | .inverted => !b.getLsbD cfg.map.place.effBondedOut

/-- The answer of `queryBootCluster` from the fuse words `b` and `d` (rule R287). -/
def selectCluster (cfg : Config) (b d : Word) : ClusterId :=
  if !b.getLsbD cfg.map.place.perfBondedOut && !d.getLsbD cfg.map.place.cpuDisable then .performance
  else if cfg.dualCluster && effSelected cfg b then .efficiency
  else .unknown

/-- The value of a write's data (rules R110, R278, R280, R301, R302, R305). -/
def exprValue (cfg : Config) (m : Master) : Expr → Word
  | .lit w => w
  | .scratch => m.v
  | .band a b => exprValue cfg m a &&& exprValue cfg m b
  | .bor a b => exprValue cfg m a ||| exprValue cfg m b
  | .bnot a => ~~~exprValue cfg m a
  | .bootField =>
    placeBit cfg.map.place.activeCluster (clusterBit cfg.map (if m.bootCluster = .performance then .p else .e))
  | .usecConst =>
    putField cfg.map.place.usecDividend (freqEntry cfg m.oscFreq).usecDividend |||
      putField cfg.map.place.usecDivisor (freqEntry cfg m.oscFreq).usecDivisor
  | .oscNote =>
    putField cfg.map.place.pllRefDiv (freqEntry cfg m.oscFreq).pllRefDiv |||
      putField cfg.map.place.oscFreq (oscRow cfg m.oscFreq).code
  | .pllDiv p =>
    divWord cfg.map (pllEntry cfg p m.oscFreq).divm (pllEntry cfg p m.oscFreq).divn (pllEntry cfg p m.oscFreq).divp
  | .pllMiscWord p =>
    pllMiscWord cfg.map
      { setup := (pllEntry cfg p m.oscFreq).setup, lockEnable := (pllEntry cfg p m.oscFreq).lockEnable }
  | .vectorArg => m.resetVector

/-- Whether a condition holds of the master's variables. -/
def condHolds (cfg : Config) (m : Master) : Cond → Bool
  | .always => true
  | .scratchIs mask want => m.v &&& mask == want
  | .oscSupported => oscSupported cfg m.oscFreq
  | .oscAgrees => fieldOf cfg.map.place.birOscFreq m.v == m.oscFreq
  | .bootIs c => m.bootCluster == c
  | .activeIs c => m.activeCluster == c
  | .vectorGiven => m.resetVector != 0
  | .neg c => !condHolds cfg m c

/-- An assignment to the master's variables (rules R258, R287, R288). -/
def runAssign (cfg : Config) (m : Master) : Assign → Master
  | .fuseWord => { m with fuseWord := m.v }
  | .bootCluster => { m with bootCluster := selectCluster cfg m.fuseWord m.v }
  | .oscFromCtrl => { m with oscFreq := fieldOf cfg.map.place.oscFreq m.v }
  | .oscFromCount => { m with oscFreq := codeOfCount cfg (fieldOf cfg.map.place.detCount m.v) }
  | .activeCluster => { m with activeCluster := clusterOfWord cfg.map m.v }

/-- `seq` moves to the next state of its list (rules R21, R300). -/
def Master.advance (m : Master) : Master := { m with seq := m.seq.succ }

/-- Run the statements that take no step, up to the next command: `skip` statements are passed over first, then
branches, assignments, soft assertions and changes of `seq` (rules R297, R300, R324; log entry 12). -/
def settleOps (cfg : Config) : Nat → List Op → Master → Master
  | _, [], m => { m with prog := [] }
  | skip + 1, _ :: rest, m => settleOps cfg skip rest m
  | 0, .cmd c :: rest, m => { m with prog := .cmd c :: rest }
  | 0, .ctl (.skipIf c n) :: rest, m => settleOps cfg (if condHolds cfg m c then n else 0) rest m
  | 0, .ctl (.assign a) :: rest, m => settleOps cfg 0 rest (runAssign cfg m a)
  | 0, .ctl (.assert c ch) :: rest, m =>
    if condHolds cfg m c then settleOps cfg 0 rest m else { m with prog := .cmd (.post ch) :: rest }
  | 0, .ctl .advance :: rest, m => settleOps cfg 0 rest m.advance

/-- The master brought to its next command. -/
def State.settle (s : State) : State := { s with master := settleOps s.cfg 0 s.master.prog s.master }

/-- Give the master a list of statements to run. -/
def State.load (s : State) (ops : List Op) : State := { s with master := { s.master with prog := ops } }

/-- The poll's test after its read: done, or the same statement again (rule R111). -/
def retryPoll (r : Reg) (mask want : Word) (s : State) : State :=
  if s.master.v &&& mask = want then s else s.load (.cmd (.poll r mask want) :: s.master.prog)

/-- Issue one command: one transaction, one `Post` (rule R60), or the refusal of rule R301, which is a step of its own
(DESIGN CHOICE, log entry 12). -/
def issue (c : Cmd) (s : State) : Result :=
  match c with
  | .raw bytes => busWord bytes s
  | .access width write addr data => busAccess width write addr data s
  | .rd r => exec (.rd r) s
  | .wr r e => exec (.wr (exprValue s.cfg s.master e) r) s
  | .poll r mask want => onNext (retryPoll r mask want) (exec (.rd r) s)
  | .post ch => .next (s.log (.post ch))
  | .refuseUnknown => refuse .unknownBootCluster

/-- The command at the head of a settled statement list is issued, and the master goes on to its next one. A master
with nothing left issues nothing (rule R307; log entry 13). -/
def issueNext (s : State) : Result :=
  match s.master.prog with
  | .cmd c :: rest => onNext State.settle (issue c (s.load rest))
  | _ => .next s

/-- One step of the master (rule R60). -/
def masterStep (s : State) : Result := issueNext s.settle

/-- The command of the table that a statement issues, if it issues one. -/
def issuedInstr (c : Cmd) (s : State) : Option Instr :=
  match c with
  | .raw bytes => (decode s.cfg bytes).toOption
  | .access width write addr data => if width ≠ 4 then none else (decodeAccess s.cfg write addr data).toOption
  | .rd r | .poll r _ _ => some (.rd r)
  | .wr r e => some (.wr (exprValue s.cfg s.master e) r)
  | .post _ | .refuseUnknown => none

/-- The write the master's next command makes, if it makes one: register, data and the statements after it. -/
def nextWrite (s : State) : Option (Reg × Word × List Op) :=
  match s.settle.master.prog with
  | .cmd c :: rest =>
    (issuedInstr c (s.settle.load rest)).bind (fun i => if i.isWrite then some (i.reg, i.data, rest) else none)
  | _ => none

/-- The state the master's step leaves when it raises `k` (rule R325). After `ClockLost` the write has been made: it is
recorded, and its statement is consumed (DEDUCED, log entry 6). After another hazard the write is not completed: only
what it stored before the check is there (DESIGN CHOICE, log entry 6). -/
def masterLeft (s : State) (k : Fault) : State :=
  match nextWrite s, k with
  | some (r, d, rest), .clockLost _ => (s.settle.load rest).stored r d
  | some (r, d, _), _ => storedAtFault k r d s
  | none, _ => s

/-- `runBootSequencer(resetVector)`: the master is given the sequencer's statements, once, with `seq = Init` and
nothing running; it is not re-entrant (rule R306). -/
def runBootSequencer (resetVector : Word) (s : State) : Option State :=
  if s.master.seq = .init ∧ s.master.prog = [] then
    some (State.load { s with master := { s.master with resetVector := resetVector } } (bootProgram s.cfg))
  else none

end Sys2Proof.Machine
end

