-- ==== Sys2Proof/Machine/Step.lean ====
section
/-! DEFINITION. One step of the machine: the agent the schedule names, or the master when it names none (rules R60,
R61, R92); a run that has ended takes no step (rules R325, R326). -/

namespace Sys2Proof.Machine

open Sys2Proof

/-- The step of the agent a move names (rule R60). -/
def takeMove (m : Move) (s : State) : Result :=
  match m with
  | .master => masterStep s
  | .agent a => agentStep a s

/-- The state a move's step leaves when it raises `k`. An agent's step raises only `ClockLost`, with its effect done and
recorded (rules R182, R325). -/
def moveLeft (m : Move) (s : State) (k : Fault) : State :=
  match m with
  | .master => masterLeft s k
  | .agent a => (agentEffect s.nextDraw a s).log (.agent a)

/-- One step of a run that keeps its marks: an ended run stays as it is; a fault or a refusal sets its mark (rules R57,
R325, R326; log entry 6). -/
def runMove (s : State) (m : Move) : State := if s.ended then s else mark s (moveLeft m s) (takeMove m s)

/-- The next entry of the schedule is consumed and its agent steps (log entry 3). -/
def scheduledStep (s : State) : Result :=
  match s.sched with
  | [] => masterStep s
  | m :: rest => takeMove m { s with sched := rest }

/-- One step. "The run ends" at a fault or a refusal: "no agent steps afterwards" (rules R325, R326). -/
def step (s : State) : Host.Outcome State Fault Refusal :=
  match s.fault with
  | some k => .fault k
  | none => if s.refused then .refused .runEnded else scheduledStep s

/-- The instruction whose bits are `w` is the master's next command, and the master steps next. The block fetches
nothing (rule R95): a program is what the master is given to issue, from outside (log entry 5). -/
def State.withFetchWord (s : State) (nbits w : Nat) : State :=
  { s with sched := [], master := { s.master with prog := [.cmd (.raw (tableBytes nbits w))] } }

end Sys2Proof.Machine
end

