-- ==== Sys2Proof/Safety.lean ====
section
/-! DEFINITION. The terms claims use: what every reset state satisfies (rule R351), the invariant every step keeps,
the start and end states of the Boot Sequencer (rules R371, R372), runs, schedules and fairness (rules R322, R323), and
the order properties of `history` (rules R154, R360 to R370). -/

namespace Sys2Proof.Machine

open Sys2Proof

/-- The facts of rule R351 that every later step keeps as well: (a), (b), (d), (e), (f), the first half of (g), and
(h); and that every field holds a value of its width. -/
structure State.Inv (s : State) : Prop where
  /-- R351 (a): the clock check passes. -/
  clocks : clockFault s = none
  /-- R351 (b): a stable PLL is enabled. -/
  stable : ∀ p, s.pllStable.get p = true → (s.pllBase.get p).enable = true
  /-- R351 (d): a repair is pending exactly when it is requested and not reported. -/
  repair : s.repairPending = (s.ramReq && !s.ramSts)
  /-- R351 (e): non-CPU logic whose line is asserted is in reset. -/
  nonCpu : ∀ c, nonCpuAsserted s c = true → s.nonCpuInReset.get c = true
  /-- R351 (f): a clamp whose removal is pending is still in place. -/
  clamps : ∀ i, s.clampPending.get i = true → s.clamp.get i = true
  /-- R351 (g): a running countdown has not expired and counts the programmed span. -/
  timer : s.tmrRunning = true → s.tmrExpired = false ∧ s.tmrValue = s.tmrPtv.toNat
  /-- A stopped countdown covers nothing (rules R246, R247). -/
  stopped : s.tmrRunning = false → s.tmrSettle = .empty
  /-- R351 (h): the lines of absent cores are 0. -/
  lines : ∀ c, (s.rstCmplx.get c).without (validLines s c) = .none
  /-- R351 (h): a PLL has the fields of `NTAPS[p]` taps, and no other. -/
  taps : ∀ p, (s.taps.get p).length = s.cfg.ntaps.get p
  /-- R351 (h): the fields of an absent cluster are 0. -/
  cluster : s.cfg.dualCluster = false → s.rstCmplx.e = .none ∧ s.softRst.e = 0 ∧ s.activeCluster = .p
  /-- R351 (h): the programmed span fits the timer. -/
  span : s.tmrPtv.toNat ≤ s.cfg.tmrMax
  /-- R23 to R49: every field holds a value of its width. -/
  fields : s.toHwState.fits s.cfg.map = true

/-- What every reset state satisfies (rules R351, R353), for a well-formed configuration whose `RESET_STATE` it is. -/
structure State.ResetOk (s : State) : Prop where
  config : s.cfg.wf = true
  /-- R8: the state elements hold what `RESET_STATE` gives them. -/
  elements : s.toHwState = s.cfg.resetState
  inv : s.Inv
  /-- R54: the fitted crystal is one of `OSC_SET`, or unsupported. -/
  crystal : ∀ f, s.oscActual = some f → ∃ x ∈ s.cfg.oscSet, x.kHz = f
  /-- R351 (c): a pending toggle is of the partition `PARTID` names. -/
  toggle : ∀ i, s.pgPending = some i → s.cfg.map.partId.get i = s.partId.toNat
  /-- R351 (g): no settle process is covered yet. -/
  settle : s.tmrSettle = .empty
  /-- R351 (h): the status of an absent cluster is 0. -/
  status : s.cfg.dualCluster = false → s.nonCpuInReset.e = false
  /-- R351 (i), R353: the bookkeeping starts empty. -/
  marks : s.fault = none ∧ s.refused = false ∧ s.history = [] ∧ s.entry = none ∧ s.master.seq = .init

/-- The cluster the fuses select (rule R287). -/
def State.bootCluster (s : State) : ClusterId :=
  selectCluster s.cfg (bondOutWord s) (cpuDisableWord s)

/-- The table entries of PLL `p` lead to a stable, and where polled to a locked, PLL (rule R372 (g)). -/
def entriesRun (cfg : Config) (p : PllId) : Bool :=
  cfg.oscSet.all (fun x =>
    (x.pll.get p).divm != 0 && (x.pll.get p).divn != 0 &&
      (cfg.lockStrategy.get p == .fixedDelay || ((x.pll.get p).lockEnable && cfg.lockReliable.get p)))

/-- `SYS_SRC` names a tap of the system PLL (rule R106). -/
def sourceIsTap (s : State) : Prop := s.sysSrc ∈ s.cfg.map.sysCode.tap

/-- `PRE_BOOT`, with the termination condition (j) (rule R372). -/
structure State.PreBoot (s : State) : Prop where
  idle : s.pgPending = none
  settled : ∀ p, p = .sys ∨ p = .cpu → (s.pllBase.get p).enable = true → s.pllStable.get p = true
  source : s.sysSrc = s.cfg.map.sysCode.osc ∨ (s.pllBase.get .sys).enable = true
  gate : cpuGateOpen s = false
  fuses : s.bootCluster ≠ .unknown
  sources : (s.cfg.sysBootSrc = s.cfg.map.sysCode.osc ∨ s.cfg.sysBootSrc = s.cfg.map.sysCode.pllSys) ∧
    (s.cfg.cpuBootSrc = s.cfg.map.cpuCode.osc ∨ s.cfg.cpuBootSrc = s.cfg.map.cpuCode.pllSys ∨
      s.cfg.cpuBootSrc = s.cfg.map.cpuCode.pllCpu)
  tables : entriesRun s.cfg .sys = true ∧ entriesRun s.cfg .cpu = true
  bounds : s.cfg.timerOk = true ∧ s.cfg.boundsOk = true
  dual : s.bootCluster = .efficiency → s.cfg.dualCluster = true
  usable : (s.cfg.lockStrategy.sys = .fixedDelay ∨ s.cfg.lockStrategy.cpu = .fixedDelay) →
    periphUsable s .timer = true

/-- A corner `PRE_BOOT` leaves open (log entry 17). With `CHECK_BYPASS[SYS]`, an enabled system PLL in
bypass is programmed anew; if the system clock hangs on it, the clock is lost when step 3 of `program` clears the
bypass before the PLL is stable (`WithEnable`), or when step 5 holds the tap it runs from in reset (rules R182, R279,
R280, R282). -/
def State.BypassedSource (s : State) : Prop :=
  s.cfg.checkBypass.sys = true ∧ (s.pllBase.get .sys).enable = true ∧ (s.pllBase.get .sys).bypass = true ∧
    s.sysSrc ≠ s.cfg.map.sysCode.osc ∧ (s.cfg.bypassClearPhase.sys = .withEnable ∨ sourceIsTap s)

/-- `program(p)` finds the PLL running and leaves its dividers alone (rule R279). -/
def foundRunning (s : State) (p : PllId) : Bool :=
  (s.pllBase.get p).enable && !(s.cfg.checkBypass.get p && (s.pllBase.get p).bypass)

/-- The durations of the stalls a run of the Boot Sequencer makes (rules R281, R292). -/
def bootStalls (s : State) : List Nat :=
  s.cfg.clampSettleUs ::
    ([PllId.sys, .cpu].filter (fun p => s.cfg.lockStrategy.get p == .fixedDelay && !foundRunning s p)).map
      s.cfg.pllStabUs.get

/-- The other corner `PRE_BOOT` leaves open, of a chip whose countdown waits for a PLL with a zero divider (log
entry 17): `PRE_BOOT` asks nothing of the USB PLL, and one that is enabled so at reset holds up for ever a stall long
enough to cover it (rules R246, R247, R321). -/
def State.StuckCountdown (s : State) : Prop :=
  s.cfg.zeroDividerStall = .hangs ∧ pllSettling s .usb = true ∧ dividersRun s .usb = false ∧
    ∃ d ∈ bootStalls s, s.cfg.pllStabUs.usb ≤ d

/-- The end state of a completed `runBootSequencer(rv)` started with `RESET_VECTOR = old` (rule R371). -/
structure State.HandedOffTo (s : State) (c : Cluster) (rv old : Word) : Prop where
  seq : s.master.seq = .handedOff
  marks : s.fault = none ∧ s.refused = false
  active : s.activeCluster = c
  runs : core0Runs s c = true
  held : ∀ d, s.cfg.clusterPresent d = true → secondaryHeld s d = true
  usable : ∀ x ∈ Gate.periphs, periphUsable s x = true
  stable : s.pllStable.sys = true ∧ s.pllStable.cpu = true
  sources : s.sysSrc = s.cfg.sysBootSrc ∧ s.cpuSrc = s.cfg.cpuBootSrc
  /-- Still asserted, unless the configuration's release mask names it (conflict C3) or its assert mask does not. -/
  watchdog : s.cfg.masks.assert.wd = true → lineAsserted s c .wd 0 = !s.cfg.masks.release.wd
  vector : s.resetVector = if rv = 0 then old else rv

/-- A run under a finite schedule. -/
def runMoves (s : State) (ms : List Move) : State := ms.foldl runMove s

/-- The `n`-th state of a run under an infinite schedule. -/
def runUnder (sched : Nat → Move) (s : State) : Nat → State
  | 0 => s
  | n + 1 => runMove (runUnder sched s n) (sched n)

/-- `FAIR_x` for an agent: its step, if it stays enabled, is eventually taken (rule R323). -/
def Fair (sched : Nat → Move) (s : State) (a : HwAgent) : Prop :=
  ∀ n, (∀ m, n ≤ m → agentEnabled (runUnder sched s m) a = true) → ∃ m, n ≤ m ∧ sched m = .agent a

/-- The master is scheduled for ever; without it nothing of rule R371 follows. -/
def MasterRuns (sched : Nat → Move) : Prop := ∀ n, ∃ m, n ≤ m ∧ sched m = .master

/-- Transition 4's last write, in a run of `runBootSequencer` under `sched`: step `k` is the master's, it completes the
release of core 0 of cluster `c`, and `seq` leaves `PowerApplied` with it (rules R295, R304; log entry 12). -/
def LastWriteOfRelease (sched : Nat → Move) (t : State) (c : Cluster) (k : Nat) : Prop :=
  sched k = .master ∧ (runUnder sched t k).master.seq = .powerApplied ∧
    (runUnder sched t (k + 1)).master.seq = .resetReleased ∧
    (runUnder sched t (k + 1)).history = (runUnder sched t k).history ++
      [.wr (.rstCmplxClr c) ((Reg.rstCmplxClr c).addr t.cfg) (core0ReleaseMask t.cfg)]

/-- What rule R371 says of a start state: every run of `runBootSequencer(rv)` from it, under every fairness assumption
except `FAIR_APPCPU`, reaches the end state; before that, at transition 4's last write and no earlier, `core0_runs` of
the booting cluster becomes true. -/
def State.BootsFully (s : State) : Prop :=
  ∀ (t : State) (rv : Word) (c : Cluster) (sched : Nat → Move),
    s.bootCluster = (if c = .p then .performance else .efficiency) → runBootSequencer rv s = some t →
    MasterRuns sched → (∀ a, a ≠ .appCpu → Fair sched t a) →
    ∃ n, (runUnder sched t n).HandedOffTo c rv s.resetVector ∧
      ∃ k, k < n ∧ LastWriteOfRelease sched t c k ∧ core0Runs (runUnder sched t (k + 1)) c = true ∧
        ∀ m, m ≤ k → core0Runs (runUnder sched t m) c = false

/-- The end-state claim as rule R371 words it, for every reset state of `PRE_BOOT`. Where `State.BypassedSource` holds
as well, rules R279, R280, R282 and R182 end the run in `ClockLost SYS`, and where `State.StuckCountdown` does, rules
R247 and R321 make it hang: the spec says both, and the model follows the command rules (log entry 17). -/
def EndStateClaim : Prop := ∀ s : State, s.ResetOk → s.PreBoot → s.BootsFully

/-- The end-state claim for the start states about which the spec does not contradict itself. -/
def EndStateClaimConsistent : Prop :=
  ∀ s : State, s.ResetOk → s.PreBoot → ¬s.BypassedSource → ¬s.StuckCountdown → s.BootsFully

/-- The agent whose step an unbounded poll of a register waits for, in the table of rule R321; the read-back polls of
the reset registers wait for none. -/
def awaitedAgent : Reg → Option HwAgent
  | .pllBase p => some (.pll p)
  | .pwrgateStatus => some .powerGate
  | .ramRepair => some .ramRepair
  | .rstCmplxStatus c => some (.resetSync c)
  | .tmrSts => some .timer
  | .oscFreqDetStatus => some .freqDet
  | _ => none

/-- Step `n` of a run is an enabled step of agent `a`. -/
def StepsAt (sched : Nat → Move) (s : State) (a : HwAgent) (n : Nat) : Prop :=
  sched n = .agent a ∧ agentPresent (runUnder sched s n).cfg a = true ∧ agentEnabled (runUnder sched s n) a = true

/-- A hang: an infinite run in which, from some point on, the master repeats the same read, and the awaited agent never
steps (rule R322). The master is scheduled for ever, so the read is made again and again. -/
def Hangs (sched : Nat → Move) (s : State) (r : Reg) (mask want : Word) : Prop :=
  MasterRuns sched ∧
    ∃ n, ∀ m, n ≤ m →
      (runUnder sched s m).ended = false ∧
        (runUnder sched s m).master.prog.head? = some (.cmd (.poll r mask want)) ∧
        ∀ a, awaitedAgent r = some a → ¬StepsAt sched s a m

/-- The writes of a history, in order (rules R154, R308). -/
def writesOf (h : List Event) : List (Reg × Word) :=
  h.filterMap (fun e => match e with | .wr r _ d => some (r, d) | _ => none)

/-- The posted bytes of a history: its trace (rule R331). -/
def traceOf (h : List Event) : List Byte :=
  h.filterMap (fun e => match e with | .post ch => some ch | _ => none)

/-- Every event with property `later` comes after one with property `earlier`; the timestamp of an event is its
index (rule R360). -/
def Precedes (earlier later : Event → Bool) (h : List Event) : Prop :=
  ∀ (j : Nat) (e : Event), h[j]? = some e → later e = true →
    ∃ (i : Nat) (d : Event), i < j ∧ h[i]? = some d ∧ earlier d = true

/-- A write of register `r` whose data satisfies `p`. -/
def isWrite (r : Reg) (p : Word → Bool) (e : Event) : Bool :=
  match e with
  | .wr q _ d => q == r && p d
  | _ => false

/-- A completed read of register `r` whose value satisfies `p`: what "confirmed" means (rule R360). -/
def isRead (r : Reg) (p : Word → Bool) (e : Event) : Bool :=
  match e with
  | .rd q _ v => q == r && p v
  | _ => false

/-- A read that shows partition `i` powered. -/
def confirmsPower (m : RegMap) (i : Part) : Event → Bool := isRead .pwrgateStatus (fun v => namesPart m v i)

/-- A write that sets `CLK_ENB.CPU`. -/
def opensGate (m : RegMap) : Event → Bool := isWrite .clkEnb (fun d => (gatesOfWord m d).cpu)

/-- A write that clears core 0's own line of cluster `c`. -/
def releasesCore0 (m : RegMap) (c : Cluster) : Event → Bool :=
  isWrite (.rstCmplxClr c) (fun d => ((linesOfWord m d).core.get .cpu).getLsbD 0)

/-- A write that starts a toggle of partition `i`. -/
def startsToggle (m : RegMap) (i : Part) : Event → Bool :=
  isWrite .pwrgateToggle (fun d => startsToggleWord m d && partOfId m (partIdOfWord m d) == some i)

/-- The orders of rules R361, R363, R364, R365, R366 and R370, as properties of the sequencer's `history`, for booting
cluster `c`. -/
structure BootOrder (m : RegMap) (c : Cluster) (h : List Event) : Prop where
  /-- R361: power is confirmed before the gate opens. -/
  gateAfterPower : Precedes (confirmsPower m (cpuPart c)) (opensGate m) h
  /-- R361: the gate opens before core 0's line is cleared. -/
  gateBeforeRelease : Precedes (opensGate m) (releasesCore0 m c) h
  /-- R363: the system clock moves before the CPU PLL is programmed. -/
  sysBeforeCpuPll : Precedes (isWrite .sclkBurstPolicy (fun _ => true)) (isWrite (.pllBase .cpu) (fun _ => true)) h
  /-- R364: the non-CPU partition is confirmed before the CPU partition is toggled. -/
  nonCpuFirst : Precedes (confirmsPower m (nonCpuPart c)) (startsToggle m (cpuPart c)) h
  /-- R364: on the performance cluster the rail is confirmed before the non-CPU partition is toggled. -/
  railFirst : c = .p → Precedes (confirmsPower m .rail) (startsToggle m .nonCpuP) h
  /-- R365: the active-cluster field is programmed before it is read. -/
  fieldFirst : Precedes (isWrite .clusterControl (fun _ => true)) (isRead .clusterControl (fun _ => true)) h
  /-- R366: every partition of the cluster is confirmed powered before any clamp is removed. -/
  clampsLast : ∀ i ∈ clusterParts c,
    Precedes (confirmsPower m i) (isWrite .removeClampingCmd (fun d => d != 0)) h
  /-- R370: step 1 before step 2's confirming read. -/
  nonCpuCleared : Precedes (isWrite (.rstCmplxClr c) (fun d => (linesOfWord m d).nonCpu))
    (isRead (.rstCmplxStatus c) (fun v => v == 0)) h
  /-- R370: step 2's confirming read before step 5. -/
  nonCpuConfirmed : Precedes (isRead (.rstCmplxStatus c) (fun v => v == 0)) (releasesCore0 m c) h

/-- The output frequency of a table entry is `target` kHz exactly: `f_osc × DIVN = target × DIVM × 2^DIVP` (rule
R142, a formula the spec marks as not in the source; used by no step). -/
def exactFrequency (e : PllEntry) (oscKHz target : Nat) : Bool :=
  oscKHz * e.divn.toNat == target * (e.divm.toNat * 2 ^ e.divp.toNat)

/-- Every table entry of PLL `p` gives `target` kHz (rules R142, R143). -/
def tableExact (cfg : Config) (p : PllId) (target : Nat) : Bool :=
  cfg.oscSet.all (fun x => exactFrequency (x.pll.get p) x.kHz target)

end Sys2Proof.Machine
end

