-- ==== Sys2Proof/Certificates/Slice0/Obligations.lean ====
section
/-! DEFINITION. The statements for the provers. "completes" means: `exec` answers a next state, and the statement says
which. A result written as a whole next state is the frame as well: every field it does not name is unchanged. Where a
statement names a bit position or a code by its number, its hypothesis is that the configuration has the spec's own
register map, `RegMap.spec` (rules R16, R102 to R106; log entry 8); every other statement holds for every map. -/

section

open Sys2Proof Sys2Proof.Machine

/-! ### Encoding -/

/-- Rules R100, R101, R103, R108: for every configuration with well-formed bases and offsets, every command's
transaction word decodes to that command, whatever its `DATA`. Rests on decisions D2, D4 of `spec/92_eei_decisions.md`,
on what the spec marks as derived in R108 and on the model's choice in log entries 7, 8, 9. -/
def Obligations.DecodeOfEncode : Prop :=
  ∀ (cfg : Config) (i : Instr), cfg.basesOk = true → cfg.map.offsetsOk = true → decode cfg (encode cfg i) = .ok i

/-- Rules R100, R101, R108, the other direction: a word that decodes to a write is that write's encoding, and a word
that decodes to a read agrees with its encoding in the opcode bits `T[64:32]`. Rests on decision D2 of
`spec/92_eei_decisions.md`, on what the spec marks as derived in R108 and on the model's choice in log entries 7, 8, 9.
-/
def Obligations.EncodeOfDecode : Prop :=
  ∀ (cfg : Config) (t : BitVec 65) (i : Instr), decodeWord cfg t = .ok i →
    (i.isWrite = true → encodeWord cfg i = t) ∧
      (i.isWrite = false → (encodeWord cfg i).extractLsb' 32 33 = t.extractLsb' 32 33)

/-- Rules R100, R101, R103: words written out by hand, one or two for every family. Rests on decisions D2, D4 of
`spec/92_eei_decisions.md` and on the model's choice in log entries 7, 8. -/
def Obligations.SpecWordsDecode : Prop :=
  decodeTableWord 65 0x00001008000000000 = some .rdPllBaseSys ∧
    decodeTableWord 65 0x1000100808011B00C = some (.wrPllBaseSys 0x8011B00C) ∧
    decodeTableWord 65 0x1000100A400040008 = some (.wrPllMiscUsb 0x00040008) ∧
    decodeTableWord 65 0x1000100200000003E = some (.wrClkEnb 0x3E) ∧
    decodeTableWord 65 0x00003000400000000 = some .rdPwrgateStatus ∧
    decodeTableWord 65 0x10003000000000103 = some (.wrPwrgateToggle 0x103) ∧
    decodeTableWord 65 0x10001005401000000 = some (.wrRstCmplxClrE 0x01000000) ∧
    decodeTableWord 65 0x1000600008000000B = some (.wrTmrPtv 0x8000000B) ∧
    decodeTableWord 65 0x00008001000000000 = some .rdFlags

/-- Rule R83: a misaligned access is refused, whichever way it is made; nothing is split, rounded or trapped. Rests on
decision D7 of `spec/92_eei_decisions.md` and on the model's choice in log entry 6. -/
def Obligations.MisalignedRefused : Prop :=
  ∀ (s : State) (write : Bool) (addr data : Word), addr.extractLsb' 0 2 ≠ 0 →
    busAccess 4 write addr data s = .refused (.badTransaction .misaligned) ∧
      (∀ left : Fault → State, mark s left (busAccess 4 write addr data s) = { s with refused := true }) ∧
      ∀ t : BitVec 65, t.extractLsb' 32 32 = addr →
        busWord (bytesOfNat 9 t.toNat) s = .refused (.badTransaction .misaligned)

/-- Rules R81, R88: an access of another width is refused; so is an aligned access to an address in no aperture, to any
address of the AHB or DBG aperture, and to an offset of an aperture at which the map has no register of that aperture.
Rests on decisions D7, D8 of `spec/92_eei_decisions.md`. -/
def Obligations.UnmappedRefused : Prop :=
  ∀ (s : State) (write : Bool) (addr data : Word), s.cfg.basesOk = true →
    (∀ width, width ≠ 4 → busAccess width write addr data s = .refused .unsupportedWidth) ∧
      (addr.toNat % 4 = 0 →
        (∀ a : Aperture, addr.toNat < (s.cfg.base.get a).toNat ∨
          (s.cfg.base.get a).toNat + s.cfg.map.apertureBytes ≤ addr.toNat) →
          busAccess 4 write addr data s = .refused (.badTransaction .outsideApertures)) ∧
      (addr.toNat % 4 = 0 → ∀ a : Aperture, (s.cfg.base.get a).toNat ≤ addr.toNat →
        addr.toNat < (s.cfg.base.get a).toNat + s.cfg.map.apertureBytes →
        (a = .ahb ∨ a = .dbg ∨
          ∀ r : Reg, r.aperture = a → (s.cfg.base.get a).toNat + r.offset s.cfg.map ≠ addr.toNat) →
          busAccess 4 write addr data s = .refused (.badTransaction .noRegister))

/-- Rules R88, R108 (3), R328: a command of a register the configuration does not have is refused, in every state, and
no command of a present register is refused for that. Rests on decisions D8, D12 of `spec/92_eei_decisions.md`, on what
the spec marks as derived in R108 and on the model's choice in log entry 9. -/
def Obligations.AbsentRegisterRefused : Prop :=
  ∀ (s : State) (i : Instr),
    exec i s = .refused (.absentRegister i.reg) ↔ i.wf s.cfg = false

/-! ### Steps -/

/-- A step runs the decoded command: when the run has not ended, the master is to step, and the bytes of its next
statement decode to `i`, the step is `exec i` with that statement consumed; afterwards the master runs on to its next
command. Rests on the model's choice in log entries 3, 12. -/
def Obligations.StepRunsDecoded : Prop :=
  ∀ (s : State) (bytes : List Byte) (rest : List Op) (i : Instr),
    s.fault = none → s.refused = false → s.sched = [] → s.master.prog = .cmd (.raw bytes) :: rest →
    decode s.cfg bytes = .ok i →
    step s = onNext State.settle (exec i (s.load rest)) ∧
      step { s with sched := [.master] } = onNext State.settle (exec i (s.load rest))

/-- Rules R325, R326, R340: an ended run takes no step and keeps its marks. A refusal changes nothing but the mark; a
hazard sets its mark on the state the step leaves (`Machine.moveLeft`): with the store or the agent's effect done for
`ClockLost`, with no effect for the hazards whose rules raise before they store anything. Rests on decisions D7, D8,
D12 of `spec/92_eei_decisions.md` and on the model's choice in log entry 6. -/
def Obligations.EndedRunStays : Prop :=
  ∀ (s : State) (m : Move),
    (∀ k, s.fault = some k → step s = .fault k) ∧
      (s.fault = none → s.refused = true → step s = .refused .runEnded) ∧
      (s.ended = true → runMove s m = s) ∧
      (s.ended = false →
        (∀ r, takeMove m s = .refused r → runMove s m = { s with refused := true }) ∧
          ∀ k, takeMove m s = .fault k →
            runMove s m = { moveLeft m s k with fault := some k } ∧
              ((∃ p, k = .pllReprogramWhileEnabled p) ∨ k = .cpuClockEnabledBadly ∨
                  (∃ x, k = .resetReleasedUnpowered x) ∨ (∃ c, k = .core0ReleasedBeforeNonCpu c) ∨
                  (∃ c, k = .core0ReleasedWithoutClock c) ∨ k = .softRstNotMirrored →
                runMove s m = { s with fault := some k }))

/-- Rules R325, R182, R151: `ClockLost` "is raised with the store done": after a master's write of a clock selector, of
the clock gates, of a `PLL_BASE` or of a tap register that ends the run so, the register holds what was written, the
write is recorded and the mark is set; nothing else changes but the statement consumed. In a state that passes the
clock check no other write can end the run so. For a tap register the PLL is to have its `NTAPS[p]` taps
(`Machine.State.Inv`). Rests on decisions D12, D17 of `spec/92_eei_decisions.md` and on the model's choice in log entry
6. -/
def Obligations.ClockLostStored : Prop :=
  ∀ (s : State) (d : Word) (k : ClockDomain) (rest : List Op) (r : Reg), s.cfg.map = .spec → s.ended = false →
    s.master.prog = .cmd (.wr r (.lit d)) :: rest → takeMove .master s = .fault (.clockLost k) →
    (clockFault s = none → r = .sclkBurstPolicy ∨ r = .cclkBurstPolicy ∨ r = .clkEnb ∨
      ∃ p, r = .pllBase p ∨ r = .pllOutA p ∨ r = .pllOutB p) ∧
    ∀ (new : Nat → Tap) (t : State),
      (∀ j, new j =
        { rstn := d.getLsbD (16 * (j % 2)), clken := d.getLsbD (16 * (j % 2) + 1),
          ratio := (d.extractLsb' (16 * (j % 2) + 8) 8).setWidth 32 }) →
      t = { s.load rest with
        fault := some (.clockLost k), history := s.history ++ [.wr r (r.addr s.cfg) d] } →
      (r = .sclkBurstPolicy → runMove s .master = { t with sysSrc := (d.extractLsb' 0 4).setWidth 32 }) ∧
        (r = .cclkBurstPolicy → runMove s .master = { t with cpuSrc := (d.extractLsb' 0 4).setWidth 32 }) ∧
        (r = .clkEnb →
          runMove s .master =
            { t with clkEnb :=
              { cpu := d.getLsbD 0, timer := d.getLsbD 1, gpio := d.getLsbD 2, memc := d.getLsbD 3,
                dma0 := d.getLsbD 4, dma1 := d.getLsbD 5 } }) ∧
        (∀ p, r = .pllBase p →
          runMove s .master =
            { t with
              pllBase := s.pllBase.set p
                { divm := (d.extractLsb' 0 5).setWidth 32, divn := (d.extractLsb' 8 10).setWidth 32,
                  divp := (d.extractLsb' 20 3).setWidth 32, enable := d.getLsbD 30, bypass := d.getLsbD 31 }
              pllStable := s.pllStable.set p
                ((s.pllBase.get p).enable && d.getLsbD 30 && s.pllStable.get p) }) ∧
        (∀ p, r = .pllOutA p ∨ r = .pllOutB p → (s.taps.get p).length = s.cfg.ntaps.get p →
          runMove s .master =
            { t with
              taps := s.taps.set p ((List.range (s.cfg.ntaps.get p)).map fun j =>
                if j < 4 ∧ (r = .pllOutA p ↔ j < 2) then new j else tapAt (s.taps.get p) j) })

/-- Rules R192, R197, R151, where their pseudocode stores something before the check that raises: `PARTID` at
`ToggleWhilePending` and `PowerDependency`, the removals named for lower partitions at `ClampRemovedUnpowered`, the
first tap of the register at `TapEnabledBeforeBase` of the second. The hazard's mark is set, and nothing else changes:
no event is recorded, and no toggle becomes pending. For a tap the PLL is to have its `NTAPS[p]` taps
(`Machine.State.Inv`). Rests on decisions D12, D17, D19, D20 of `spec/92_eei_decisions.md` and on the model's choice in
log entry 6. -/
def Obligations.HazardKeepsEarlierStores : Prop :=
  ∀ (s : State) (d : Word) (k : Fault) (rest : List Op) (r : Reg), s.cfg.map = .spec → s.ended = false →
    s.master.prog = .cmd (.wr r (.lit d)) :: rest → takeMove .master s = .fault k →
    ∀ (number : PerPart Nat) (new : Nat → Tap),
      number = { rail := 0, nonCpuP := 1, cpu0P := 2, nonCpuE := 3, cpuE := 4 } →
      (∀ j, new j =
        { rstn := d.getLsbD (16 * (j % 2)), clken := d.getLsbD (16 * (j % 2) + 1),
          ratio := (d.extractLsb' (16 * (j % 2) + 8) 8).setWidth 32 }) →
      ((k = .toggleWhilePending ∨ ∃ i, k = .powerDependency i) →
        runMove s .master = { s with partId := (d.extractLsb' 0 5).setWidth 32, fault := some k }) ∧
      (∀ i, k = .clampRemovedUnpowered i →
        ∃ c : PerPart Bool,
          (∀ j, c.get j = (s.clampPending.get j ||
            (decide (number.get j < number.get i) && d.getLsbD (number.get j) && s.clamp.get j))) ∧
            runMove s .master = { s with clampPending := c, fault := some k }) ∧
      (∀ p j, k = .tapEnabledBeforeBase p j → (s.taps.get p).length = s.cfg.ntaps.get p →
        runMove s .master =
          { s with
            taps := s.taps.set p ((List.range (s.cfg.ntaps.get p)).map fun a =>
              if j % 2 = 1 ∧ a + 1 = j then new a else tapAt (s.taps.get p) a)
            fault := some k })

/-! ### Reads (rule R84): each read completes in every state, gives the value its rule lays out, and changes nothing of
the block. Values are written as the bit concatenations of the rules, most
significant field first; `setWidth 32` puts zeros above. -/

/-- Rules R253, R171, R173, R175, R177, R179: the reads of the plain clock registers, encoded at their offsets of the
`CAR` aperture with `W = 0`. -/
def Obligations.ClockReads : Prop :=
  ∀ s : State, s.cfg.map = .spec →
    (∀ (i : Instr) (offset : Word),
      (i, offset) ∈ [(Instr.rdOscCtrl, (0x000 : Word)), (.rdSclkBurstPolicy, 0x010), (.rdSclkDivider, 0x014),
        (.rdCclkBurstPolicy, 0x018), (.rdCclkDivider, 0x01C), (.rdClkEnb, 0x020)] →
      (encodeWord s.cfg i).extractLsb' 32 33 = (s.cfg.base.car + offset).setWidth 33) ∧
      exec .rdOscCtrl s = .next (s.gotRead .oscCtrl ((s.pllRefDiv.setWidth 2 ++ s.oscFreq.setWidth 4).setWidth 32)) ∧
      exec .rdSclkBurstPolicy s = .next (s.gotRead .sclkBurstPolicy ((s.sysSrc.setWidth 4).setWidth 32)) ∧
      exec .rdSclkDivider s =
        .next (s.gotRead .sclkDivider
          ((BitVec.ofBool s.sclkDivider.enb ++ 0#15 ++ s.sclkDivider.dividend.setWidth 8 ++
            s.sclkDivider.divisor.setWidth 8).setWidth 32)) ∧
      exec .rdCclkBurstPolicy s = .next (s.gotRead .cclkBurstPolicy ((s.cpuSrc.setWidth 4).setWidth 32)) ∧
      exec .rdCclkDivider s =
        .next (s.gotRead .cclkDivider
          ((BitVec.ofBool s.cclkDivider.enb ++ 0#15 ++ s.cclkDivider.dividend.setWidth 8 ++
            s.cclkDivider.divisor.setWidth 8).setWidth 32)) ∧
      exec .rdClkEnb s =
        .next (s.gotRead .clkEnb
          ((BitVec.ofBool s.clkEnb.dma1 ++ BitVec.ofBool s.clkEnb.dma0 ++ BitVec.ofBool s.clkEnb.memc ++
            BitVec.ofBool s.clkEnb.gpio ++ BitVec.ofBool s.clkEnb.timer ++ BitVec.ofBool s.clkEnb.cpu).setWidth 32))

/-- Rules R216, R219, R223, R225; the registers of cluster `E` when it is present. Rests on decisions D22, D25, D28 of
`spec/92_eei_decisions.md`. -/
def Obligations.ResetReads : Prop :=
  ∀ s : State, s.cfg.map = .spec → ∀ (dev : Word) (lines : Cluster → Word),
    dev = (BitVec.ofBool s.rstDev.dma1 ++ BitVec.ofBool s.rstDev.dma0 ++ BitVec.ofBool s.rstDev.memc ++
        BitVec.ofBool s.rstDev.gpio ++ BitVec.ofBool s.rstDev.timer ++ BitVec.ofBool s.rstDev.cpu).setWidth 32 →
    (∀ c, lines c = (BitVec.ofBool (s.rstCmplx.get c).nonCpu ++ 0#4 ++ (s.rstCmplx.get c).core.cx.setWidth 4 ++
      (s.rstCmplx.get c).core.wd.setWidth 4 ++ (s.rstCmplx.get c).core.core.setWidth 4 ++
      (s.rstCmplx.get c).core.dbg.setWidth 4 ++ (s.rstCmplx.get c).core.cpu.setWidth 4).setWidth 32) →
    exec .rdRstDevSet s = .next (s.gotRead .rstDevSet dev) ∧
      exec .rdRstDevClr s = .next (s.gotRead .rstDevClr dev) ∧
      exec .rdRstCmplxSetP s = .next (s.gotRead (.rstCmplxSet .p) (lines .p)) ∧
      exec .rdRstCmplxClrP s = .next (s.gotRead (.rstCmplxClr .p) (lines .p)) ∧
      exec .rdRstCmplxStatusP s =
        .next (s.gotRead (.rstCmplxStatus .p) ((BitVec.ofBool s.nonCpuInReset.p).setWidth 32)) ∧
      exec .rdCpuSoftrstCtrlP s = .next (s.gotRead (.cpuSoftrstCtrl .p) s.softRst.p) ∧
      (s.cfg.dualCluster = true →
        exec .rdRstCmplxSetE s = .next (s.gotRead (.rstCmplxSet .e) (lines .e)) ∧
          exec .rdRstCmplxClrE s = .next (s.gotRead (.rstCmplxClr .e) (lines .e)) ∧
          exec .rdRstCmplxStatusE s =
            .next (s.gotRead (.rstCmplxStatus .e) ((BitVec.ofBool s.nonCpuInReset.e).setWidth 32)) ∧
          exec .rdCpuSoftrstCtrlE s = .next (s.gotRead (.cpuSoftrstCtrl .e) s.softRst.e))

/-- Rules R144, R148: `{BYPASS, ENABLE, 0, 0, LOCK, 0000, DIVP, 00, DIVN, 000, DIVM}` with the computed `LOCK`, and
`(LOCK_ENABLE << 18) | SETUP`, at `0x080 + 0x10·p` and `0x084 + 0x10·p` of the `CAR` aperture; refused when the PLL is
absent. -/
def Obligations.PllReads : Prop :=
  ∀ (s : State) (p : PllId) (index : Word) (base misc : Instr),
    (p, index, base, misc) ∈ [(PllId.sys, (0 : Word), Instr.rdPllBaseSys, Instr.rdPllMiscSys),
      (.cpu, 1, .rdPllBaseCpu, .rdPllMiscCpu), (.usb, 2, .rdPllBaseUsb, .rdPllMiscUsb)] →
    s.cfg.map = .spec →
    (encodeWord s.cfg base).extractLsb' 32 33 = (s.cfg.base.car + 0x080 + 0x10 * index).setWidth 33 ∧
      (encodeWord s.cfg misc).extractLsb' 32 33 = (s.cfg.base.car + 0x084 + 0x10 * index).setWidth 33 ∧
      (s.cfg.pllPresent p = false →
        exec base s = .refused (.absentRegister (.pllBase p)) ∧
          exec misc s = .refused (.absentRegister (.pllMisc p))) ∧
      (s.cfg.pllPresent p = true →
        exec base s =
            .next (s.gotRead (.pllBase p)
              ((BitVec.ofBool (s.pllBase.get p).bypass ++ BitVec.ofBool (s.pllBase.get p).enable ++ 0#2 ++
                BitVec.ofBool ((s.pllBase.get p).enable && s.pllStable.get p && (s.pllMisc.get p).lockEnable &&
                  s.cfg.lockReliable.get p) ++
                0#4 ++ (s.pllBase.get p).divp.setWidth 3 ++ 0#2 ++ (s.pllBase.get p).divn.setWidth 10 ++ 0#3 ++
                (s.pllBase.get p).divm.setWidth 5).setWidth 32)) ∧
          exec misc s =
            .next (s.gotRead (.pllMisc p)
              ((BitVec.ofBool (s.pllMisc.get p).lockEnable ++ 0#2 ++ (s.pllMisc.get p).setup.setWidth 16).setWidth 32)))

/-- Rule R150: the two taps of a tap register, each `{RATIO, 000000, CLKEN, RSTN}`, and 0 for a tap the PLL does not
have; for each present tap register. Rests on decision D17 of `spec/92_eei_decisions.md`. -/
def Obligations.TapReads : Prop :=
  ∀ (s : State) (p : PllId) (outA outB : Instr),
    (p, outA, outB) ∈ [(PllId.sys, Instr.rdPllOutaSys, Instr.rdPllOutbSys), (.cpu, .rdPllOutaCpu, .rdPllOutbCpu),
      (.usb, .rdPllOutaUsb, .rdPllOutbUsb)] →
    s.cfg.pllPresent p = true → s.cfg.map = .spec →
    ∀ half : Nat → BitVec 16,
      (∀ k, half k =
        if k < s.cfg.ntaps.get p then
          ((tapAt (s.taps.get p) k).ratio.setWidth 8 ++ 0#6 ++ BitVec.ofBool (tapAt (s.taps.get p) k).clken ++
            BitVec.ofBool (tapAt (s.taps.get p) k).rstn).setWidth 16
        else 0) →
      (0 < s.cfg.ntaps.get p → exec outA s = .next (s.gotRead (.pllOutA p) ((half 1 ++ half 0).setWidth 32))) ∧
        (2 < s.cfg.ntaps.get p → exec outB s = .next (s.gotRead (.pllOutB p) ((half 3 ++ half 2).setWidth 32)))

/-- Rules R191, R194, R196, R199; `RAM_REPAIR` when it is present. Rests on decisions D19, D20, D21 of
`spec/92_eei_decisions.md`. -/
def Obligations.PowerReads : Prop :=
  ∀ s : State, s.cfg.map = .spec →
    exec .rdPwrgateToggle s =
        .next (s.gotRead .pwrgateToggle
          ((BitVec.ofBool s.pgPending.isSome ++ 0#3 ++ s.partId.setWidth 5).setWidth 32)) ∧
      exec .rdPwrgateStatus s =
        .next (s.gotRead .pwrgateStatus
          ((BitVec.ofBool s.pwrStatus.cpuE ++ BitVec.ofBool s.pwrStatus.nonCpuE ++ BitVec.ofBool s.pwrStatus.cpu0P ++
            BitVec.ofBool s.pwrStatus.nonCpuP ++ BitVec.ofBool s.pwrStatus.rail).setWidth 32)) ∧
      exec .rdRemoveClampingCmd s = .next (s.gotRead .removeClampingCmd 0) ∧
      (s.cfg.ramRepairPresent = true →
        exec .rdRamRepair s =
          .next (s.gotRead .ramRepair ((BitVec.ofBool s.ramSts ++ BitVec.ofBool s.ramReq).setWidth 32)))

/-- Rules R268, R256, R259, R260, R261, R263, R248, R265, R250. Rests on decisions D9, D29, D30, D31, D32, D34 of
`spec/92_eei_decisions.md`. -/
def Obligations.SupportReads : Prop :=
  ∀ s : State, s.cfg.map = .spec →
    exec .rdOscFreqDet s = .next (s.gotRead .oscFreqDet ((s.refClkWin.setWidth 4).setWidth 32)) ∧
      exec .rdOscFreqDetStatus s =
        .next (s.gotRead .oscFreqDetStatus
          ((BitVec.ofBool s.detBusy ++ 0#15 ++ s.detCount.setWidth 16).setWidth 32)) ∧
      exec .rdBondOut s = .next (s.gotRead .bondOut
        ((BitVec.ofBool s.effBondedOut ++ BitVec.ofBool s.perfBondedOut).setWidth 32)) ∧
      exec .rdCpuDisable s = .next (s.gotRead .cpuDisable ((BitVec.ofBool s.cpuDisable).setWidth 32)) ∧
      exec .rdClusterControl s =
        .next (s.gotRead .clusterControl (if s.activeCluster = .p then 0 else 1)) ∧
      exec .rdResetVector s = .next (s.gotRead .resetVector s.resetVector) ∧
      exec .rdTmrPtv s =
        .next (s.gotRead .tmrPtv ((BitVec.ofBool s.tmrEn ++ 0#2 ++ s.tmrPtv.setWidth 29).setWidth 32)) ∧
      exec .rdTmrSts s = .next (s.gotRead .tmrSts ((BitVec.ofBool s.tmrExpired).setWidth 32)) ∧
      exec .rdTimerusUsecCfg s =
        .next (s.gotRead .timerusUsecCfg ((s.usecDividend.setWidth 8 ++ s.usecDivisor.setWidth 8).setWidth 32))

/-- Rules R49, R262: the five words of the boot information record. Rests on decision D33 of
`spec/92_eei_decisions.md`. -/
def Obligations.BootRecordReads : Prop :=
  ∀ s : State, s.cfg.map = .spec →
    exec .rdSigVersion s = .next (s.gotRead .sigVersion s.bir.sigVersion) ∧
      exec .rdSigDataVersion s = .next (s.gotRead .sigDataVersion s.bir.sigDataVersion) ∧
      exec .rdOscFreq s = .next (s.gotRead .birOscFreq ((s.bir.oscFreq.setWidth 4).setWidth 32)) ∧
      exec .rdBootType s = .next (s.gotRead .bootType s.bir.bootType) ∧
      exec .rdFlags s =
        .next (s.gotRead .flags ((BitVec.ofBool s.bir.devInit ++ BitVec.ofBool s.bir.sdramInit).setWidth 32))

/-! ### Writes. `clockFault s = none` is the clock check of rule R182, which every state of a run passes
(`Obligations.StepKeepsInvariant`). -/

/-- Rule R89: the seven writes to registers all of whose fields are `RO` change nothing and are recorded; the five
writes to the boot information record are refused. Rests on decision D8 of `spec/92_eei_decisions.md` and on the
model's choice in log entry 11. -/
def Obligations.ReadOnlyWrites : Prop :=
  ∀ (s : State) (d : Word),
    (clockFault s = none →
      exec (.wrOscFreqDetStatus d) s = .next (s.logWrite .oscFreqDetStatus d) ∧
        exec (.wrRstCmplxStatusP d) s = .next (s.logWrite (.rstCmplxStatus .p) d) ∧
        (s.cfg.dualCluster = true →
          exec (.wrRstCmplxStatusE d) s = .next (s.logWrite (.rstCmplxStatus .e) d)) ∧
        exec (.wrPwrgateStatus d) s = .next (s.logWrite .pwrgateStatus d) ∧
        exec (.wrBondOut d) s = .next (s.logWrite .bondOut d) ∧
        exec (.wrCpuDisable d) s = .next (s.logWrite .cpuDisable d) ∧
        exec (.wrTmrSts d) s = .next (s.logWrite .tmrSts d)) ∧
      exec (.wrSigVersion d) s = .refused (.bootRecordWrite .sigVersion) ∧
      exec (.wrSigDataVersion d) s = .refused (.bootRecordWrite .sigDataVersion) ∧
      exec (.wrOscFreq d) s = .refused (.bootRecordWrite .birOscFreq) ∧
      exec (.wrBootType d) s = .refused (.bootRecordWrite .bootType) ∧
      exec (.wrFlags d) s = .refused (.bootRecordWrite .flags)

/-- Rules R267, R254, R174, R178, R266, R270, R149, R226: the plain registers without a hazard store their fields, and
those of a PLL or a cluster do where it is present; starting a measurement sets `BUSY` and keeps `COUNT`. The
soft-reset registers have one field, so their clauses hold for every map. Rests on decisions D14, D16, D25, D31, D32,
D34, D37 of `spec/92_eei_decisions.md` and on the model's choice in log entries 10, 11. -/
def Obligations.PlainWrites : Prop :=
  ∀ (s : State) (d : Word), clockFault s = none →
    exec (.wrCpuSoftrstCtrlP d) s =
        .next (State.logWrite { s with softRst := { p := d, e := s.softRst.e } } (.cpuSoftrstCtrl .p) d) ∧
      (s.cfg.dualCluster = true →
        exec (.wrCpuSoftrstCtrlE d) s =
          .next (State.logWrite { s with softRst := { p := s.softRst.p, e := d } } (.cpuSoftrstCtrl .e) d)) ∧
      (s.cfg.map = .spec →
        exec (.wrOscCtrl d) s =
          .next (State.logWrite
            { s with oscFreq := (d.extractLsb' 0 4).setWidth 32, pllRefDiv := (d.extractLsb' 4 2).setWidth 32 }
            .oscCtrl d) ∧
        exec (.wrOscFreqDet d) s =
          .next (State.logWrite
            { s with refClkWin := (d.extractLsb' 0 4).setWidth 32, detBusy := s.detBusy || d.getLsbD 31 }
            .oscFreqDet d) ∧
        exec (.wrSclkDivider d) s =
          .next (State.logWrite
            { s with sclkDivider :=
                { enb := d.getLsbD 31, dividend := (d.extractLsb' 8 8).setWidth 32,
                  divisor := (d.extractLsb' 0 8).setWidth 32 } }
            .sclkDivider d) ∧
        exec (.wrCclkDivider d) s =
          .next (State.logWrite
            { s with cclkDivider :=
                { enb := d.getLsbD 31, dividend := (d.extractLsb' 8 8).setWidth 32,
                  divisor := (d.extractLsb' 0 8).setWidth 32 } }
            .cclkDivider d) ∧
        exec (.wrTimerusUsecCfg d) s =
          .next (State.logWrite
            { s with usecDividend := (d.extractLsb' 8 8).setWidth 32, usecDivisor := (d.extractLsb' 0 8).setWidth 32 }
            .timerusUsecCfg d) ∧
        exec (.wrResetVector d) s = .next (State.logWrite { s with resetVector := d } .resetVector d) ∧
          ∀ (p : PllId) (i : Instr),
            (p, i) ∈ [(PllId.sys, Instr.wrPllMiscSys d), (.cpu, .wrPllMiscCpu d), (.usb, .wrPllMiscUsb d)] →
            s.cfg.pllPresent p = true →
            exec i s =
              .next (State.logWrite
                { s with pllMisc :=
                  s.pllMisc.set p { setup := (d.extractLsb' 0 16).setWidth 32, lockEnable := d.getLsbD 18 } }
                (.pllMisc p) d))

/-- Rules R172, R59, R106, R182: `WR_SCLK_BURST_POLICY` completes when the new selector names a clean source, and is
`ClockLost SYS` otherwise, every reserved selector included. Rests on decisions D12, D14, D18, D29, D36, D38, D39 of
`spec/92_eei_decisions.md`. -/
def Obligations.SystemClockSwitch : Prop :=
  ∀ (s : State) (d : Word) (sel : Nat), s.cfg.map = .spec → sel = (d.extractLsb' 0 4).toNat →
    (cpuGateOpen s = true → cclkOk s = true) →
    ((sel = 0 ∨ (sel = 1 ∧ pllOutOk s .sys = true) ∨
        (∃ k < 4, sel = 2 + k ∧ k < s.cfg.ntaps.sys ∧ tapOk s .sys k = true)) →
      exec (.wrSclkBurstPolicy d) s =
        .next (State.logWrite { s with sysSrc := (d.extractLsb' 0 4).setWidth 32 } .sclkBurstPolicy d)) ∧
    (¬(sel = 0 ∨ (sel = 1 ∧ pllOutOk s .sys = true) ∨
        (∃ k < 4, sel = 2 + k ∧ k < s.cfg.ntaps.sys ∧ tapOk s .sys k = true)) →
      exec (.wrSclkBurstPolicy d) s = .fault (.clockLost .sys))

/-- Rules R176, R59, R106, R182: `WR_CCLK_BURST_POLICY` stores any selector while the CPU gate is closed; with the gate
open an unclean one is `ClockLost CPU`. Rests on decisions D12, D14, D18, D29, D36, D38, D39 of
`spec/92_eei_decisions.md`. -/
def Obligations.CpuClockSwitch : Prop :=
  ∀ (s : State) (d : Word) (sel : Nat), s.cfg.map = .spec →
    sel = (d.extractLsb' 0 4).toNat → sclkOk s = true →
    ((cpuGateOpen s = false ∨ sel = 0 ∨ (sel = 1 ∧ pllOutOk s .sys = true) ∨ (sel = 2 ∧ pllOutOk s .cpu = true)) →
      exec (.wrCclkBurstPolicy d) s =
        .next (State.logWrite { s with cpuSrc := (d.extractLsb' 0 4).setWidth 32 } .cclkBurstPolicy d)) ∧
    (¬(cpuGateOpen s = false ∨ sel = 0 ∨ (sel = 1 ∧ pllOutOk s .sys = true) ∨
        (sel = 2 ∧ pllOutOk s .cpu = true)) →
      exec (.wrCclkBurstPolicy d) s = .fault (.clockLost .cpu))

/-- Rules R180, R182: `WR_CLK_ENB`. Opening the CPU gate needs the active cluster's CPU partition powered and core 0's
own line asserted, and a clean CPU clock; the order of the checks is the rule's. Rests on decisions D12, D36 of
`spec/92_eei_decisions.md` and on the model's choice in log entry 11. -/
def Obligations.ClockGateWrite : Prop :=
  ∀ (s : State) (d : Word), s.cfg.map = .spec → sclkOk s = true →
    if cpuGateOpen s = false ∧ d.getLsbD 0 = true ∧
        (isPowered s (if s.activeCluster = .p then .cpu0P else .cpuE) = false ∨
          lineAsserted s s.activeCluster .cpu 0 = false) then
      exec (.wrClkEnb d) s = .fault .cpuClockEnabledBadly
    else if d.getLsbD 0 = true ∧ cclkOk s = false then exec (.wrClkEnb d) s = .fault (.clockLost .cpu)
    else
      exec (.wrClkEnb d) s =
        .next (State.logWrite
          { s with clkEnb :=
            { cpu := d.getLsbD 0, timer := d.getLsbD 1, gpio := d.getLsbD 2, memc := d.getLsbD 3,
              dma0 := d.getLsbD 4, dma1 := d.getLsbD 5 } }
          .clkEnb d)

/-- Rules R145, R146: `WR_PLL_BASE_p` for each present PLL. Dividers may not change on an enabled PLL; otherwise the
fields are stored, `pll_stable[p]` survives only when the PLL was and stays enabled, and the clock check decides. Rests
on decisions D12, D16 of `spec/92_eei_decisions.md` and on what the spec marks as derived in R146. -/
def Obligations.PllBaseWrite : Prop :=
  ∀ (s : State) (d : Word) (p : PllId) (i : Instr),
    (p, i) ∈ [(PllId.sys, Instr.wrPllBaseSys d), (.cpu, .wrPllBaseCpu d), (.usb, .wrPllBaseUsb d)] →
    s.cfg.pllPresent p = true → s.cfg.map = .spec →
    ∀ (old new : PllBase) (t : State), old = s.pllBase.get p →
      new = { divm := (d.extractLsb' 0 5).setWidth 32, divn := (d.extractLsb' 8 10).setWidth 32,
              divp := (d.extractLsb' 20 3).setWidth 32, enable := d.getLsbD 30, bypass := d.getLsbD 31 } →
      t = { s with
        pllBase := s.pllBase.set p new
        pllStable := s.pllStable.set p (old.enable && new.enable && s.pllStable.get p) } →
      if old.enable = true ∧ new.enable = true ∧ (new.divm, new.divn, new.divp) ≠ (old.divm, old.divn, old.divp) then
        exec i s = .fault (.pllReprogramWhileEnabled p)
      else
        (clockFault t = none → exec i s = .next (t.logWrite (.pllBase p) d)) ∧
          ∀ k, clockFault t = some k → exec i s = .fault k

/-- Rule R151: `WR_PLL_OUTA_p` and `WR_PLL_OUTB_p` when present. In the order of the taps, an enable that changes and
is on while the base output does not run is `TapEnabledBeforeBase`; otherwise the taps the PLL has are stored, and the
clock check decides. The PLL is to have its `NTAPS[p]` taps (`Machine.State.Inv`). Rests on decisions D12, D17 of
`spec/92_eei_decisions.md`. -/
def Obligations.TapWrite : Prop :=
  ∀ (s : State) (d : Word) (p : PllId) (a b : Nat) (r : Reg) (i : Instr),
    (p, a, b, r, i) ∈
      [(PllId.sys, 0, 1, Reg.pllOutA .sys, Instr.wrPllOutaSys d),
        (.sys, 2, 3, .pllOutB .sys, .wrPllOutbSys d),
        (.cpu, 0, 1, .pllOutA .cpu, .wrPllOutaCpu d), (.cpu, 2, 3, .pllOutB .cpu, .wrPllOutbCpu d),
        (.usb, 0, 1, .pllOutA .usb, .wrPllOutaUsb d), (.usb, 2, 3, .pllOutB .usb, .wrPllOutbUsb d)] →
    s.cfg.pllPresent p = true → s.cfg.map = .spec → a < s.cfg.ntaps.get p →
    (s.taps.get p).length = s.cfg.ntaps.get p →
    ∀ (new : Nat → Tap) (bad : Nat → Prop) (t : State),
      (∀ k, new k =
        { rstn := d.getLsbD (16 * (k % 2)), clken := d.getLsbD (16 * (k % 2) + 1),
          ratio := (d.extractLsb' (16 * (k % 2) + 8) 8).setWidth 32 }) →
      (∀ k, bad k ↔ k < s.cfg.ntaps.get p ∧ ((new k).clken = true ∨ (new k).rstn = true) ∧
        ((tapAt (s.taps.get p) k).clken, (tapAt (s.taps.get p) k).rstn) ≠ ((new k).clken, (new k).rstn) ∧
        pllOutOk s p = false) →
      t = { s with
        taps := s.taps.set p ((List.range (s.cfg.ntaps.get p)).map fun k =>
          if k = a ∨ k = b then new k else tapAt (s.taps.get p) k) } →
      (bad a → exec i s = .fault (.tapEnabledBeforeBase p a)) ∧
        (¬bad a → bad b → exec i s = .fault (.tapEnabledBeforeBase p b)) ∧
        (¬bad a → ¬bad b → clockFault t = none → exec i s = .next (t.logWrite r d)) ∧
        (¬bad a → ¬bad b → ∀ k, clockFault t = some k → exec i s = .fault k)

/-- Rules R192, R202, R106: `WR_PWRGATE_TOGGLE`. Without `START` only `PARTID` is stored; with it the checks stand in
the order of the rule, and the toggle of the named partition becomes pending; `PWRGATE_STATUS` does not change. Rests
on decisions D12, D14, D18, D19, D29, D36, D38 of `spec/92_eei_decisions.md`. -/
def Obligations.ToggleWrite : Prop :=
  ∀ (s : State) (d : Word), s.cfg.map = .spec → clockFault s = none →
    ∀ number : PerPart Nat, number = { rail := 0, nonCpuP := 1, cpu0P := 2, nonCpuE := 3, cpuE := 4 } →
    (d.getLsbD 8 = false →
      exec (.wrPwrgateToggle d) s =
        .next (State.logWrite { s with partId := (d.extractLsb' 0 5).setWidth 32 } .pwrgateToggle d)) ∧
    (d.getLsbD 8 = true → 5 ≤ (d.extractLsb' 0 5).toNat →
      exec (.wrPwrgateToggle d) s = .refused .reservedPartition) ∧
    (∀ i : Part, d.getLsbD 8 = true → (d.extractLsb' 0 5).toNat = number.get i →
      if s.pgPending ≠ none then exec (.wrPwrgateToggle d) s = .fault .toggleWhilePending
      else if (i = .nonCpuP ∨ i = .cpu0P) ∧ isPowered s i = false ∧ isPowered s .rail = false then
        exec (.wrPwrgateToggle d) s = .fault (.powerDependency i)
      else if i = .rail ∧ isPowered s .rail = true ∧ (isPowered s .nonCpuP = true ∨ isPowered s .cpu0P = true) then
        exec (.wrPwrgateToggle d) s = .fault (.powerDependency .rail)
      else
        exec (.wrPwrgateToggle d) s =
          .next (State.logWrite { s with partId := (d.extractLsb' 0 5).setWidth 32, pgPending := some i }
            .pwrgateToggle d))

/-- Rule R197: `WR_REMOVE_CLAMPING_CMD`. With every named partition powered it completes: the named clamps still in
place become pending, and no clamp is removed by the write; else it faults at the lowest unpowered one. Rests on
decisions D12, D20 of `spec/92_eei_decisions.md`. -/
def Obligations.ClampWrite : Prop :=
  ∀ (s : State) (d : Word), s.cfg.map = .spec → clockFault s = none →
    ∀ number : PerPart Nat, number = { rail := 0, nonCpuP := 1, cpu0P := 2, nonCpuE := 3, cpuE := 4 } →
    ((∀ i : Part, d.getLsbD (number.get i) = true → isPowered s i = true) →
      ∃ c : PerPart Bool,
        (∀ i, c.get i = (s.clampPending.get i || (d.getLsbD (number.get i) && s.clamp.get i))) ∧
          exec (.wrRemoveClampingCmd d) s = .next (State.logWrite { s with clampPending := c } .removeClampingCmd d)) ∧
    (∀ i : Part, d.getLsbD (number.get i) = true → isPowered s i = false →
      (∀ j : Part, number.get j < number.get i → d.getLsbD (number.get j) = true → isPowered s j = true) →
      exec (.wrRemoveClampingCmd d) s = .fault (.clampRemovedUnpowered i))

/-- Rule R200: `WR_RAM_REPAIR` when present: a new request clears `STS` and is pending, a repeated one does nothing,
and `REQ = 0` clears both. Rests on decision D21 of `spec/92_eei_decisions.md`. -/
def Obligations.RepairWrite : Prop :=
  ∀ (s : State) (d : Word), s.cfg.map = .spec → clockFault s = none → s.cfg.ramRepairPresent = true →
    exec (.wrRamRepair d) s =
      .next (State.logWrite
        (if d.getLsbD 0 = false then { s with ramReq := false, ramSts := false, repairPending := false }
          else if s.ramReq = false then { s with ramReq := true, ramSts := false, repairPending := true }
          else s)
        .ramRepair d)

/-- Rule R217: `RST_DEV <- RST_DEV | DATA[5:0]`, always legal, at `0x030` of the `CAR` aperture; afterwards no timer
whose line it asserts can expire, and with the whole-complex line asserted no core 0 runs. -/
def Obligations.DeviceResetSet : Prop :=
  ∀ (s : State) (d : Word), s.cfg.map = .spec →
    (encodeWord s.cfg (.wrRstDevSet d)).extractLsb' 32 33 =
        (s.cfg.base.car + 0x030).setWidth 33 ||| (1#33 <<< 32) ∧
      (clockFault s = none →
        ∃ t : State, exec (.wrRstDevSet d) s = .next t ∧
          t = State.logWrite
            { s with rstDev :=
              { cpu := s.rstDev.cpu || d.getLsbD 0, timer := s.rstDev.timer || d.getLsbD 1,
                gpio := s.rstDev.gpio || d.getLsbD 2, memc := s.rstDev.memc || d.getLsbD 3,
                dma0 := s.rstDev.dma0 || d.getLsbD 4, dma1 := s.rstDev.dma1 || d.getLsbD 5 } }
            .rstDevSet d ∧
          (d.extractLsb' 0 6 = 0 → t.rstDev = s.rstDev) ∧
          (d.getLsbD 1 = true → agentEnabled t .timer = false) ∧
          (d.getLsbD 0 = true → ∀ c, core0Runs t c = false))

/-- Rule R218: `RST_DEV <- RST_DEV & ~DATA[5:0]`; releasing the whole-complex line while the active cluster's non-CPU
partition is off is `ResetReleasedUnpowered CPU_COMPLEX`. Rests on decisions D12, D23 of `spec/92_eei_decisions.md`. -/
def Obligations.DeviceResetClear : Prop :=
  ∀ (s : State) (d : Word), s.cfg.map = .spec → clockFault s = none →
    if d.getLsbD 0 = true ∧ s.rstDev.cpu = true ∧
        isPowered s (if s.activeCluster = .p then .nonCpuP else .nonCpuE) = false then
      exec (.wrRstDevClr d) s = .fault (.resetReleasedUnpowered .cpuComplex)
    else
      exec (.wrRstDevClr d) s =
        .next (State.logWrite
          { s with rstDev :=
            { cpu := s.rstDev.cpu && !d.getLsbD 0, timer := s.rstDev.timer && !d.getLsbD 1,
              gpio := s.rstDev.gpio && !d.getLsbD 2, memc := s.rstDev.memc && !d.getLsbD 3,
              dma0 := s.rstDev.dma0 && !d.getLsbD 4, dma1 := s.rstDev.dma1 && !d.getLsbD 5 } }
          .rstDevClr d)

/-- Rules R220, R215, R107: `WR_RST_CMPLX_SET_c` asserts the named lines of the cores the cluster has and leaves every
other line as it was, and asserting `NONCPURESET` shows in the status at once; for each present cluster. Rests on
decisions D22, D24, D27 of `spec/92_eei_decisions.md`. -/
def Obligations.ClusterResetSet : Prop :=
  ∀ (s : State) (d : Word) (c : Cluster) (i : Instr),
    (c, i) ∈ [(Cluster.p, Instr.wrRstCmplxSetP d), (.e, .wrRstCmplxSetE d)] →
    s.cfg.clusterPresent c = true → s.cfg.map = .spec → clockFault s = none →
    ∀ lowest : PerKind Nat, lowest = { cpu := 0, dbg := 4, core := 8, wd := 12, cx := 16 } →
      ∃ x : Lines,
        (∀ (k : LineKind) (n : Nat),
          (x.core.get k).getLsbD n =
            (lineAsserted s c k n ||
              (decide (n < 4) && decide (n < s.cfg.ncores.get c) && d.getLsbD (lowest.get k + n)))) ∧
        x.nonCpu = (nonCpuAsserted s c || d.getLsbD 24) ∧
        exec i s =
          .next (State.logWrite
            { s with
              rstCmplx := s.rstCmplx.set c x
              nonCpuInReset := s.nonCpuInReset.set c (s.nonCpuInReset.get c || d.getLsbD 24) }
            (.rstCmplxSet c) d)

/-- Rule R221: `WR_RST_CMPLX_CLR_c` for each present cluster, with every check in the order of the rule; `m` is the
lines that actually change. The `NONCPU_IN_RESET` status does not change. Rests on decisions D12, D22, D26 of
`spec/92_eei_decisions.md`. -/
def Obligations.ClusterResetClear : Prop :=
  ∀ (s : State) (d : Word) (c : Cluster) (i : Instr),
    (c, i) ∈ [(Cluster.p, Instr.wrRstCmplxClrP d), (.e, .wrRstCmplxClrE d)] →
    s.cfg.clusterPresent c = true → s.cfg.map = .spec → clockFault s = none →
    ∀ (lowest : PerKind Nat) (m : Lines), lowest = { cpu := 0, dbg := 4, core := 8, wd := 12, cx := 16 } →
      (∀ (k : LineKind) (n : Nat),
        (m.core.get k).getLsbD n =
          (lineAsserted s c k n && decide (n < 4) && decide (n < s.cfg.ncores.get c) &&
            d.getLsbD (lowest.get k + n))) →
      m.nonCpu = (nonCpuAsserted s c && d.getLsbD 24) →
      if ∃ k ∈ LineKind.all, ∃ n ∈ ([1, 2, 3] : List Nat), (m.core.get k).getLsbD n = true then
        exec i s = .refused .secondaryCoreRelease
      else if m.nonCpu = true ∧ isPowered s (if c = .p then .nonCpuP else .nonCpuE) = false ∧
          ¬(s.cfg.dualCluster = true ∧ s.cfg.crossClusterClear = true ∧ c ≠ s.activeCluster ∧
            ∀ k ∈ LineKind.all, m.core.get k = 0) then
        exec i s = .fault (.resetReleasedUnpowered (.nonCpu c))
      else if (∃ k ∈ LineKind.all, (m.core.get k).getLsbD 0 = true) ∧
          isPowered s (if c = .p then .cpu0P else .cpuE) = false then
        exec i s = .fault (.resetReleasedUnpowered (.core0 c))
      else if (∃ k ∈ [LineKind.cpu, .dbg, .core, .cx], (m.core.get k).getLsbD 0 = true) ∧
          (nonCpuAsserted s c = true ∨ s.nonCpuInReset.get c = true) then
        exec i s = .fault (.core0ReleasedBeforeNonCpu c)
      else if (∃ k ∈ [LineKind.cpu, .dbg, .core, .cx], (m.core.get k).getLsbD 0 = true) ∧ cpuGateOpen s = false then
        exec i s = .fault (.core0ReleasedWithoutClock c)
      else if (∃ k ∈ [LineKind.cpu, .dbg, .core, .cx], (m.core.get k).getLsbD 0 = true) ∧
          s.cfg.dualCluster = true ∧ s.softRst.p ≠ s.softRst.e then
        exec i s = .fault .softRstNotMirrored
      else
        ∃ x : Lines,
          (∀ (k : LineKind) (n : Nat),
            (x.core.get k).getLsbD n = (lineAsserted s c k n && !(m.core.get k).getLsbD n)) ∧
          x.nonCpu = (nonCpuAsserted s c && !m.nonCpu) ∧
          exec i s = .next (State.logWrite { s with rstCmplx := s.rstCmplx.set c x } (.rstCmplxClr c) d)

/-- Rules R246, R56: `WR_TMR_PTV`. A span above `TMR_MAX` is refused; `EN = 1` starts a countdown that covers exactly
the settle processes pending now with `bound + 1 ≤ PTV`; `EN = 0` stops it and `EXPIRED` keeps its value. Rests on
decisions D13, D31 of `spec/92_eei_decisions.md`. -/
def Obligations.TimerWrite : Prop :=
  ∀ (s : State) (d : Word) (v : Word), s.cfg.map = .spec → v = (d.extractLsb' 0 29).setWidth 32 →
    clockFault s = none →
    (s.cfg.tmrMax < v.toNat → exec (.wrTmrPtv d) s = .refused .timerSpan) ∧
    (v.toNat ≤ s.cfg.tmrMax → d.getLsbD 31 = false →
      exec (.wrTmrPtv d) s =
        .next (State.logWrite
          { s with tmrEn := false, tmrPtv := v, tmrRunning := false, tmrSettle := .empty } .tmrPtv d)) ∧
    (v.toNat ≤ s.cfg.tmrMax → d.getLsbD 31 = true →
      ∃ q : SettleSet,
        (∀ p, q.pll.get p = true ↔ s.cfg.pllPresent p = true ∧ (s.pllBase.get p).enable = true ∧
          s.pllStable.get p = false ∧ s.cfg.pllStabUs.get p + 1 ≤ v.toNat) ∧
        (∀ i, q.clamp.get i = true ↔ s.clampPending.get i = true ∧ s.cfg.clampSettleUs + 1 ≤ v.toNat) ∧
        exec (.wrTmrPtv d) s =
          .next (State.logWrite
            { s with
              tmrEn := true, tmrPtv := v, tmrRunning := true, tmrValue := v.toNat, tmrExpired := false
              tmrSettle := q }
            .tmrPtv d))

/-- Rules R269, R106: `ACTIVE_CLUSTER <- DATA[0]`; refused when it would be 1 without `DUAL_CLUSTER`. Rests on
decisions D14, D18, D29, D36, D38 of `spec/92_eei_decisions.md`. -/
def Obligations.ClusterControlWrite : Prop :=
  ∀ (s : State) (d : Word), s.cfg.map = .spec → clockFault s = none →
    if d.getLsbD 0 = true ∧ s.cfg.dualCluster = false then
      exec (.wrClusterControl d) s = .refused .singleCluster
    else
      exec (.wrClusterControl d) s =
        .next (State.logWrite { s with activeCluster := if d.getLsbD 0 = true then .e else .p } .clusterControl d)

/-- Rules R84, R90: what a write of a plain register stored is what a read of it gives back, with the reserved bits
dropped: the masks are those of the field layouts of rule R104. Rests on decisions D5, D8, D9 of
`spec/92_eei_decisions.md` and on the model's choice in log entry 10. -/
def Obligations.ReadAfterWrite : Prop :=
  ∀ (s t : State) (d mask : Word) (r : Reg),
    (r, mask) ∈ [(Reg.oscCtrl, (0x3F : Word)), (.oscFreqDet, 0xF), (.sclkBurstPolicy, 0xF), (.sclkDivider, 0x8000FFFF),
      (.cclkBurstPolicy, 0xF), (.cclkDivider, 0x8000FFFF), (.clkEnb, 0x3F), (.cpuSoftrstCtrl .p, 0xFFFFFFFF),
      (.cpuSoftrstCtrl .e, 0xFFFFFFFF), (.pllMisc .sys, 0x4FFFF), (.pllMisc .cpu, 0x4FFFF), (.pllMisc .usb, 0x4FFFF),
      (.resetVector, 0xFFFFFFFF), (.clusterControl, 1), (.tmrPtv, 0x9FFFFFFF), (.timerusUsecCfg, 0xFFFF)] →
    s.cfg.map = .spec → exec (.wr d r) s = .next t → exec (.rd r) t = .next (t.gotRead r (d &&& mask))

/-- Rules R87, R254, R197, R192: repeating at once a write that completed changes nothing but `history`, whatever its
register, with one exception: a toggle start, whose repetition is `ToggleWhilePending`. A repeated `OSC_FREQ_DET` start
finds the detector busy (R254), a repeated clamp removal finds it pending or done (R197), and a countdown started again
at once is the one that was started. Rests on decisions D12, D19, D20, D32 of `spec/92_eei_decisions.md` and on what
the spec marks as derived in R87. -/
def Obligations.WritesIdempotent : Prop :=
  ∀ (s t : State) (d : Word) (r : Reg), exec (.wr d r) s = .next t →
    if r = .pwrgateToggle ∧ d.getLsbD s.cfg.map.place.start = true then exec (.wr d r) t = .fault .toggleWhilePending
    else exec (.wr d r) t = .next (t.logWrite r d)

/-! ### The hardware agents -/

/-- Rules R147, R198, R201, R222, R63: the enabled steps of `PllAgent(p)`, `ClampAgent(i)`, `RamRepairAgent`,
`ResetSyncAgent(c)` and `AppCpuAgent` change exactly what their rules name. Rests on decisions D13, D16, D20, D21, D22,
D34 of `spec/92_eei_decisions.md` and on the model's choice in log entry 11. -/
def Obligations.AgentSteps : Prop :=
  ∀ s : State, clockFault s = none →
    (∀ p, s.cfg.pllPresent p = true → (s.pllBase.get p).enable = true → s.pllStable.get p = false →
      (s.pllBase.get p).divm ≠ 0 → (s.pllBase.get p).divn ≠ 0 →
      agentStep (.pll p) s = .next (State.log { s with pllStable := s.pllStable.set p true } (.agent (.pll p)))) ∧
    (∀ i, s.clampPending.get i = true →
      agentStep (.clamp i) s =
        .next (State.log { s with clamp := s.clamp.set i false, clampPending := s.clampPending.set i false }
          (.agent (.clamp i)))) ∧
    (s.cfg.ramRepairPresent = true → s.repairPending = true → isPowered s .rail = true →
      agentStep .ramRepair s =
        .next (State.log { s with ramSts := true, repairPending := false } (.agent .ramRepair))) ∧
    (∀ c, s.cfg.clusterPresent c = true → nonCpuAsserted s c = false → s.nonCpuInReset.get c = true →
      isPowered s (if c = .p then .nonCpuP else .nonCpuE) = true →
      agentStep (.resetSync c) s =
        .next (State.log { s with nonCpuInReset := s.nonCpuInReset.set c false } (.agent (.resetSync c)))) ∧
    (s.entry = none → (core0Runs s .p = true ∨ core0Runs s .e = true) →
      agentStep .appCpu s = .next (State.log { s with entry := some s.resetVector } (.agent .appCpu)))

/-- Rule R193, for every value drawn: a completed toggle flips the partition's status bit and no other, and clears
`pg_pending`; only powering down touches the partition's clamp, whose pending removal is dropped. Rests on decision D19
of `spec/92_eei_decisions.md` and on the model's choice in log entry 4. -/
def Obligations.ToggleCompletes : Prop :=
  ∀ (s : State) (i : Part) (x : Draw), clockFault s = none → s.pgPending = some i →
    ∃ t : State, agentStepWith x .powerGate s = .next t ∧ t.pgPending = none ∧
      isPowered t i = !isPowered s i ∧ (∀ j, j ≠ i → isPowered t j = isPowered s j) ∧
      (isPowered s i = false → t.clamp = s.clamp ∧ t.clampPending = s.clampPending ∧ t.drawn = s.drawn) ∧
      (isPowered s i = true → t.clampPending.get i = false ∧
        ∀ j, j ≠ i → t.clamp.get j = s.clamp.get j ∧ t.clampPending.get j = s.clampPending.get j) ∧
      t = { s with
        pwrStatus := t.pwrStatus, pgPending := none, clamp := t.clamp, clampPending := t.clampPending
        drawn := t.drawn, history := s.history ++ [.agent .powerGate] }

/-- Rules R255, R257, R258, for every value drawn and every set of oscillators whose codes tell them apart: a
measurement ends with `BUSY` 0; with the window `FD_WIN` its count converts to the code of the fitted crystal,
whichever row of `OSC_SET` it is, or to the code for "unknown" when the crystal is none of them; nothing else changes.
Rests on decisions D32, D33 of `spec/92_eei_decisions.md` and on the model's choice in log entry 4. -/
def Obligations.MeasurementCompletes : Prop :=
  ∀ (s : State) (x : Draw), s.cfg.oscSetOk = true → s.cfg.rangesOk = true → s.cfg.outsideOk = true →
    clockFault s = none → s.detBusy = true →
    ∃ n : Word, agentStepWith x .freqDet s =
        .next (State.log { s with detBusy := false, detCount := n, drawn := s.drawn + 1 } (.agent .freqDet)) ∧
      (s.refClkWin = s.cfg.fdWin →
        (∀ o ∈ s.cfg.oscSet, s.oscActual = some o.kHz → codeOfCount s.cfg n = o.code) ∧
          ((∀ o ∈ s.cfg.oscSet, s.oscActual ≠ some o.kHz) → codeOfCount s.cfg n = s.cfg.map.oscUnknown))

/-- Rules R246, R247, R281, R321, R322: `EXPIRED` goes from 0 to 1 only when every settle process the countdown covers
has completed, with the timer usable, and a running countdown that meets both can expire. A pending PLL with a zero
divider can never settle. Where the configuration has it hang (rules R247, R321), a poll of `EXPIRED` on a countdown
that covers it hangs under every schedule; where the configuration has the stall return (rule R281, case U1), it holds
nothing up. The spec says both. Rests on decisions D13, D16, D31 of `spec/92_eei_decisions.md` and on the model's
choice in log entry 17. -/
def Obligations.ExpiryWaitsForSettle : Prop :=
  (∀ s t : State, step s = .next t → s.tmrExpired = false → t.tmrExpired = true →
    s.tmrRunning = true ∧ periphUsable s .timer = true ∧
      (∀ p, s.tmrSettle.pll.get p = true →
        pllSettling t p = false ∨
          (s.cfg.zeroDividerStall = .returns ∧ ((t.pllBase.get p).divm = 0 ∨ (t.pllBase.get p).divn = 0))) ∧
      (∀ i, s.tmrSettle.clamp.get i = true → clampSettling t i = false)) ∧
  (∀ s : State, clockFault s = none → s.tmrRunning = true → periphUsable s .timer = true →
    (∀ p, s.tmrSettle.pll.get p = true →
      pllSettling s p = false ∨
        (s.cfg.zeroDividerStall = .returns ∧ ((s.pllBase.get p).divm = 0 ∨ (s.pllBase.get p).divn = 0))) →
    (∀ i, s.tmrSettle.clamp.get i = true → clampSettling s i = false) →
    agentStep .timer s =
      .next (State.log { s with tmrExpired := true, tmrRunning := false, tmrSettle := .empty } (.agent .timer))) ∧
  (∀ (s : State) (p : PllId) (sched : Nat → Move), s.cfg.map = .spec → s.cfg.zeroDividerStall = .hangs →
    s.ended = false → clockFault s = none → s.tmrExpired = false →
    s.master.prog.head? = some (.cmd (.poll .tmrSts 1 1)) → s.tmrSettle.pll.get p = true → pllSettling s p = true →
    ((s.pllBase.get p).divm = 0 ∨ (s.pllBase.get p).divn = 0) → MasterRuns sched → Hangs sched s .tmrSts 1 1)

/-- Rules R92, R61: a step of a hardware agent writes no `RW` field, no reset line, no input and nothing of the master.
Rests on decision D41 of `spec/92_eei_decisions.md`. -/
def Obligations.AgentsWriteNoRegister : Prop :=
  ∀ (s t : State) (a : HwAgent), agentStep a s = .next t →
    t = { s with
      detBusy := t.detBusy, detCount := t.detCount, nonCpuInReset := t.nonCpuInReset, pwrStatus := t.pwrStatus
      ramSts := t.ramSts, tmrExpired := t.tmrExpired, pllStable := t.pllStable, pgPending := t.pgPending
      clamp := t.clamp, clampPending := t.clampPending, tmrRunning := t.tmrRunning, tmrSettle := t.tmrSettle
      repairPending := t.repairPending, entry := t.entry, history := t.history, drawn := t.drawn }

/-! ### Whole-machine rules -/

/-- The facts of rule R351 that the command rules keep, and that every field holds a value of its width (rules R23 to
R49; `Machine.State.Inv`), are kept by every step from every state. Rests on decisions D11, D33 of
`spec/92_eei_decisions.md`. -/
def Obligations.StepKeepsInvariant : Prop := ∀ s t : State, s.Inv → step s = .next t → t.Inv

/-- Rules R351, R352: the state after reset (the profile `COLD0`, the model's choice: log entry 1) satisfies the reset
constraints. Rests on decision D11 of `spec/92_eei_decisions.md` and on the model's choice in log entry 1. -/
def Obligations.ResetSatisfiesConstraints : Prop := State.reset.ResetOk

/-- Rule R372, its last sentence: the state after reset (the profile `COLD0`, the model's choice: log entry 1)
satisfies `PRE_BOOT`; nor is it in a corner that `PRE_BOOT` leaves open (log entry 17). Rests on what the spec marks as
derived in R372. -/
def Obligations.ResetMayBoot : Prop :=
  State.reset.PreBoot ∧ ¬State.reset.BypassedSource ∧ ¬State.reset.StuckCountdown

/-- Rules R44, R45, R49, R54, R61: the inputs and the configuration never change. Rests on decisions D30, D32, D33 of
`spec/92_eei_decisions.md`. -/
def Obligations.InputsConstant : Prop :=
  ∀ s t : State, step s = .next t →
    t.cfg = s.cfg ∧ t.perfBondedOut = s.perfBondedOut ∧ t.effBondedOut = s.effBondedOut ∧
      t.cpuDisable = s.cpuDisable ∧ t.bir = s.bir ∧ t.oscActual = s.oscActual

/-- Rules R227 (c), R107: no step deasserts a line of a secondary core, of whichever of the five kinds; so once
`SECONDARY_MASK[c]` has been set its lines stay asserted, and secondary cores once held stay held. Rests on decisions
D22, D24, D27 of `spec/92_eei_decisions.md` and on what the spec marks as derived in R227. -/
def Obligations.SecondaryCoresStayHeld : Prop :=
  ∀ (s t : State) (c : Cluster), step s = .next t →
    (∀ (k : LineKind) (n : Nat), 1 ≤ n → lineAsserted s c k n = true → lineAsserted t c k n = true) ∧
      (secondaryHeld s c = true → secondaryHeld t c = true)

/-- Rules R227 (d), R361, R362, R367, R370: a line of core 0 is released only by a clear write that names it, with the
CPU partition powered; and one other than the watchdog's only with the non-CPU logic out of reset, the CPU gate open
and, on a dual-cluster chip, the soft-reset registers equal. Rests on decisions D23, D25 of `spec/92_eei_decisions.md`
and on what the spec marks as derived in R227. -/
def Obligations.CoreReleaseIsOrdered : Prop :=
  ∀ (s t : State) (c : Cluster) (k : LineKind), step s = .next t →
    lineAsserted s c k 0 = true → lineAsserted t c k 0 = false →
    (∃ d : Word, d.getLsbD (s.cfg.map.place.lines.get k).lo = true ∧
      t.history = s.history ++ [.wr (.rstCmplxClr c) ((Reg.rstCmplxClr c).addr s.cfg) d]) ∧
      isPowered s (if c = .p then .cpu0P else .cpuE) = true ∧
      (k ≠ .wd → nonCpuAsserted s c = false ∧ s.nonCpuInReset.get c = false ∧ cpuGateOpen s = true ∧
        (s.cfg.dualCluster = true → s.softRst.p = s.softRst.e))

/-- Rules R361, R180: the CPU gate goes from closed to open only with the active cluster's CPU partition powered, core
0's own line asserted, and a clean CPU clock. Rests on decisions D12, D36 of `spec/92_eei_decisions.md`. -/
def Obligations.GateOpensInOrder : Prop :=
  ∀ s t : State, step s = .next t → cpuGateOpen s = false → cpuGateOpen t = true →
    isPowered s (if s.activeCluster = .p then .cpu0P else .cpuE) = true ∧
      lineAsserted s s.activeCluster .cpu 0 = true ∧ cclkOk t = true

/-- Rules R153 (a), R140, R144: a read of `PLL_BASE[p]` that shows `LOCK = 1` finds the PLL enabled and stable, so its
output clean; a clean output is lost only by a write of that PLL's `PLL_BASE` with `BYPASS = 0`, and the output of an
enabled and stable PLL only by one with `ENABLE = 0` as well. Rests on what the spec marks as derived in R153. -/
def Obligations.PllOutputKept : Prop :=
  (∀ (s t : State) (p : PllId) (v : Word), s.cfg.map = .spec → exec (.rd (.pllBase p)) s = .next t →
    t = s.gotRead (.pllBase p) v → v.getLsbD 27 = true →
    (t.pllBase.get p).enable = true ∧ t.pllStable.get p = true ∧ pllOutOk t p = true) ∧
  (∀ (s t : State) (p : PllId), step s = .next t → pllOutOk s p = true → pllOutOk t p = false →
    ∃ d : Word, t.history = s.history ++ [.wr (.pllBase p) ((Reg.pllBase p).addr s.cfg) d] ∧
      d.getLsbD s.cfg.map.place.pll.bypass = false ∧
      ((s.pllBase.get p).enable = true → s.pllStable.get p = true → d.getLsbD s.cfg.map.place.pll.enable = false))

/-- Rule R57: a step that leads on appends at most one event to `history` and changes no earlier one; the marks are not
set by it. Rests on decision D12 of `spec/92_eei_decisions.md` and on the model's choice in log entry 6. -/
def Obligations.HistoryGrows : Prop :=
  ∀ s t : State, step s = .next t →
    (t.history = s.history ∨ ∃ e, t.history = s.history ++ [e]) ∧ t.fault = none ∧ t.refused = false

/-- Rule R21: `seq` never goes back. -/
def Obligations.SequencerNeverGoesBack : Prop :=
  ∀ s t : State, step s = .next t → s.master.seq.rank ≤ t.master.seq.rank

/-- Rules R63, R95: `entry` is set once, by the application CPU's first fetch, to the value `RESET_VECTOR` holds at
that step, and only while core 0 of some cluster runs. Rests on decision D34 of `spec/92_eei_decisions.md`. -/
def Obligations.FirstFetchOnce : Prop :=
  ∀ s t : State, step s = .next t →
    (∀ a, s.entry = some a → t.entry = some a) ∧
      (∀ a, s.entry = none → t.entry = some a →
        a = s.resetVector ∧ t.resetVector = s.resetVector ∧ (core0Runs s .p = true ∨ core0Runs s .e = true))

/-! ### The driving procedures -/

/-- Rule R111: a `POLL` of a register whose read completes makes one read; it is done when the masked value is the
wanted one, and is the master's next statement again otherwise, without bound. Rests on decision D35 of
`spec/92_eei_decisions.md` and on the model's choice in log entry 12. -/
def Obligations.PollReadsUntilWanted : Prop :=
  ∀ (s u : State) (r : Reg) (mask want : Word) (rest : List Op),
    s.master.prog = .cmd (.poll r mask want) :: rest → exec (.rd r) (s.load rest) = .next u →
    masterStep s =
      .next (if u.master.v &&& mask = want then u.settle else u.load (.cmd (.poll r mask want) :: rest))

/-- Rules R289 and R203, on the partition's bit of rule R106: one read; on a powered partition that is all; otherwise
the toggle command is next and then a poll of the partition's bit, which stays next for as long as the bit reads 0.
That the branch is taken within the read's step is the model's choice (log entry 12; rule R60). Rests on decisions D14,
D18, D29, D36, D38, D41 of `spec/92_eei_decisions.md`. -/
def Obligations.PowerUpProcedure : Prop :=
  ∀ (s : State) (i : Part) (rest : List Op) (v : Word), s.cfg.map = .spec →
    v = (BitVec.ofBool s.pwrStatus.cpuE ++ BitVec.ofBool s.pwrStatus.nonCpuE ++ BitVec.ofBool s.pwrStatus.cpu0P ++
      BitVec.ofBool s.pwrStatus.nonCpuP ++ BitVec.ofBool s.pwrStatus.rail).setWidth 32 →
    ∀ number : PerPart Nat, number = { rail := 0, nonCpuP := 1, cpu0P := 2, nonCpuE := 3, cpuE := 4 } →
    (s.master.prog = powerUp s.cfg.map i ++ rest → isPowered s i = true →
      masterStep s = .next ((s.load rest).gotRead .pwrgateStatus v).settle) ∧
    (s.master.prog = powerUp s.cfg.map i ++ rest → isPowered s i = false →
      ∃ toggle poll : Op,
        toggle = .cmd (.wr .pwrgateToggle (.lit (BitVec.ofNat 32 (2 ^ 8 + number.get i)))) ∧
        poll = .cmd (.poll .pwrgateStatus (BitVec.ofNat 32 (2 ^ number.get i)) (BitVec.ofNat 32 (2 ^ number.get i))) ∧
        masterStep s = .next ((s.load (toggle :: poll :: rest)).gotRead .pwrgateStatus v)) ∧
    (∀ m : Word, m = BitVec.ofNat 32 (2 ^ number.get i) →
      s.master.prog = .cmd (.poll .pwrgateStatus m m) :: rest →
      masterStep s =
        .next (if isPowered s i = true then ((s.load rest).gotRead .pwrgateStatus v).settle
          else s.gotRead .pwrgateStatus v))

/-- Rules R286, R111: closing the CPU gate is one read of `CLK_ENB` and then, always, a write of `v & ~1`; opening it
is one read and then a write of `v | 1`, to which the checks of the write command apply. That the master runs on to its
next command within a step is the model's choice (log entry 12; rule R60). Rests on decisions D35, D41 of
`spec/92_eei_decisions.md`. -/
def Obligations.CpuGateProcedures : Prop :=
  ∀ (s : State) (rest ops : List Op) (v data : Word), s.cfg.map = .spec →
    v = (BitVec.ofBool s.clkEnb.dma1 ++ BitVec.ofBool s.clkEnb.dma0 ++ BitVec.ofBool s.clkEnb.memc ++
      BitVec.ofBool s.clkEnb.gpio ++ BitVec.ofBool s.clkEnb.timer ++ BitVec.ofBool s.clkEnb.cpu).setWidth 32 →
    (ops, data) ∈ [(disableCpuClockGate s.cfg.map, v &&& ~~~(1 : Word)), (enableCpuClockGate s.cfg.map, v ||| 1)] →
    s.master.prog = ops ++ rest →
    ∃ (op : Op) (u : State), masterStep s = .next u ∧ u = (s.load (op :: rest)).gotRead .clkEnb v ∧
      masterStep u = onNext State.settle (exec (.wrClkEnb data) (u.load rest))

/-- Rules R305, R300: with a vector the hand-off writes it to `RESET_VECTOR` and posts `'e'`, or what the configuration
has in its place; with 0 it makes no bus transaction and posts the same; either way `seq` goes to `HandedOff`. That
`seq` changes within the step of the last command is the model's choice (log entry 12; rule R60). Rests on decisions
D40, D41 of `spec/92_eei_decisions.md`. -/
def Obligations.HandOff : Prop :=
  ∀ (s : State) (rest : List Op), s.master.prog = transition5 s.cfg ++ rest →
    s.master.seq = .resetReleased → clockFault s = none →
    ∀ (e : Byte) (t : State), e = s.cfg.posts.handedOff →
      t = { s with master := { s.master with seq := .handedOff, prog := rest } } →
      (s.cfg.posts = .spec → e = 0x65) ∧
      (s.master.resetVector = 0 → masterStep s = .next (t.log (.post e)).settle) ∧
      (s.master.resetVector ≠ 0 →
        ∀ u : State,
          u = State.logWrite { t with resetVector := s.master.resetVector } .resetVector s.master.resetVector →
          masterStep s = .next (u.load (.cmd (.post e) :: rest)) ∧
            masterStep (u.load (.cmd (.post e) :: rest)) = .next (u.log (.post e)).settle)

/-- Rules R249, R296: a stall of `d` microseconds is `n` maximum-span waits and one remainder wait, always made; the
guaranteed length is `d` ticks, and every span fits the timer. Rests on decision D31 of `spec/92_eei_decisions.md`. -/
def Obligations.StallArithmetic : Prop :=
  ∀ (cfg : Config) (d : Nat), cfg.map = .spec → cfg.timerOk = true →
    ∃ n r : Nat, n * (cfg.tmrMax - 1) + r = d ∧ r + 1 < cfg.tmrMax ∧
      stallUs cfg d = (List.replicate n (waitTicks cfg.map cfg.tmrMax)).flatten ++ waitTicks cfg.map (r + 1) ∧
      (stallUs cfg d).length = 2 * n + 2 ∧
      ∀ k, k ≤ cfg.tmrMax →
        waitTicks cfg.map k = [.cmd (.wr .tmrPtv (.lit (BitVec.ofNat 32 (2 ^ 31 + k)))), .cmd (.poll .tmrSts 1 1)]

/-- Rule R287: the answer of `queryBootCluster` for every fuse word, on both polarities. Rests on decision D30 of
`spec/92_eei_decisions.md`. -/
def Obligations.BootClusterRule : Prop :=
  ∀ (cfg : Config) (b d : Word), cfg.map = .spec →
    selectCluster cfg b d =
      if b.getLsbD 0 = false ∧ d.getLsbD 0 = false then .performance
      else if cfg.dualCluster = true ∧ (b.getLsbD 1 = true ↔ cfg.effSelectPolarity = .literal) then .efficiency
      else .unknown

/-- The end-state claim of rule R371, as the rule words it: every reset state of `PRE_BOOT`, and no further condition.
It fails in this model: where `SYS` has `CHECK_BYPASS`, the system PLL is enabled in bypass and the system clock hangs
on it, `PRE_BOOT` holds, and rules R279, R280, R282 and R182 end the run in `ClockLost SYS`; and where a zero divider
of the USB PLL holds a stall up, the run hangs (rules R247, R321; log entry 17). Rests on decisions D12, D13, D16, D17,
D31 of `spec/92_eei_decisions.md`, on what the spec marks as derived in R371 and on the model's choice in log entries
12, 17. -/
def Obligations.EndStateRule : Prop := EndStateClaim

/-- The end-state claim of rule R371 for every start state but those in which the rules the sequencer is made of
contradict it (`Machine.State.BypassedSource`, `Machine.State.StuckCountdown`, log entry 17). Rests on what the spec
marks as derived in R371 and on the model's choice in log entries 12, 17. -/
def Obligations.EndStateConsistent : Prop := EndStateClaimConsistent

/-- Rules R142, R143: every default table entry gives its target frequency exactly (216, 600 and 960 MHz). The formula
is the spec's own, marked there as not in the source. Rests on decision D15 of `spec/92_eei_decisions.md` and on the
model's choice in log entry 2. -/
def Obligations.DefaultTablesExact : Prop :=
  tableExact Config.default .sys 216000 = true ∧ tableExact Config.default .cpu 600000 = true ∧
    tableExact Config.default .usb 960000 = true

end
end

