-- ==== Sys2Proof/Laws/Encoding.lean ====
section
/-! SUPPORT. The bits of an encoded command, its stored bytes, and where registers stand in the map. -/

namespace Sys2Proof

theorem bytesOfNat_length (k n : Nat) : (bytesOfNat k n).length = k := by
  induction k generalizing n with
  | zero => rfl
  | succ k ih => simp [bytesOfNat, ih]

theorem natOfBytes_bytesOfNat (k n : Nat) : natOfBytes (bytesOfNat k n) = n % 256 ^ k := by
  induction k generalizing n with
  | zero => simp [bytesOfNat, natOfBytes, Nat.mod_one]
  | succ k ih =>
    simp only [bytesOfNat, natOfBytes, ih, BitVec.toNat_ofNat]
    rw [show (256 : Nat) ^ (k + 1) = 256 * 256 ^ k by rw [Nat.pow_succ, Nat.mul_comm], Nat.mod_mul]

/-- The decoder on the stored bytes of a transaction word is the decoder on the word. -/
theorem decode_bytesOfNat (cfg : Config) (t : BitVec 65) :
    decode cfg (bytesOfNat 9 t.toNat) = decodeWord cfg t := by
  have ht := t.isLt
  have h : natOfBytes (bytesOfNat 9 t.toNat) = t.toNat := by
    rw [natOfBytes_bytesOfNat]
    exact Nat.mod_eq_of_lt (by omega)
  unfold decode wordBytes
  rw [bytesOfNat_length, h, if_neg (by simp), if_neg (by omega), BitVec.ofNat_toNat, BitVec.setWidth_eq]

/-- `T[31:0]` is `DATA`, `T[63:32]` is `ADDR`, `T[64]` is `W`. -/
theorem encodeWord_getLsbD (cfg : Config) (i : Instr) (k : Nat) :
    (encodeWord cfg i).getLsbD k =
      if k < 32 then i.data.getLsbD k
      else if k < 64 then (i.reg.addr cfg).getLsbD (k - 32)
      else (decide (k = 64) && i.isWrite) := by
  have h : (encodeWord cfg i).getLsbD k =
      if k < 32 then i.data.getLsbD k else (BitVec.ofBool i.isWrite ++ i.reg.addr cfg).getLsbD (k - 32) :=
    BitVec.getLsbD_append ..
  have h' : (BitVec.ofBool i.isWrite ++ i.reg.addr cfg).getLsbD (k - 32) =
      if k - 32 < 32 then (i.reg.addr cfg).getLsbD (k - 32)
      else (BitVec.ofBool i.isWrite).getLsbD (k - 32 - 32) :=
    BitVec.getLsbD_append ..
  rw [h, h', BitVec.getLsbD_ofBool]
  split
  · rfl
  · by_cases h2 : k < 64
    · rw [if_pos (by omega), if_pos h2]
    · rw [if_neg (by omega), if_neg h2]
      congr 1
      simp
      omega

/-- Every register is in the list. -/
theorem Reg.mem_all (r : Reg) : r ∈ Reg.all := by
  cases r <;> first | decide | (rename_i x; cases x <;> decide)

/-- In a well-formed map a register stands at a word-aligned offset inside its aperture, and is alone there. -/
theorem offset_of_offsetsOk {m : RegMap} (h : m.offsetsOk = true) (r : Reg) :
    r.offset m % 4 = 0 ∧ r.offset m < m.apertureBytes ∧
      ∀ q : Reg, q.aperture = r.aperture → q.offset m = r.offset m → q = r := by
  have hr := List.all_eq_true.1 h r (Reg.mem_all r)
  simp only [Bool.and_eq_true, beq_iff_eq, decide_eq_true_eq] at hr
  refine ⟨hr.1.1, hr.1.2, fun q ha ho => ?_⟩
  have hq := List.all_eq_true.1 hr.2 q (Reg.mem_all q)
  simpa [ha, ho] using hq

/-- What the map says stands at a place stands there. -/
theorem regAt_eq_some {m : RegMap} {ap : Aperture} {n : Nat} {r : Reg} (h : regAt m ap n = some r) :
    r.aperture = ap ∧ r.offset m = n := by
  have h' := List.find?_some h
  simpa using h'

/-- A well-formed map has each register at its own place. -/
theorem regAt_offset {m : RegMap} (h : m.offsetsOk = true) (r : Reg) : regAt m r.aperture (r.offset m) = some r := by
  cases hf : regAt m r.aperture (r.offset m) with
  | none =>
    have := List.find?_eq_none.1 hf r (Reg.mem_all r)
    simp at this
  | some q =>
    obtain ⟨ha, ho⟩ := regAt_eq_some hf
    rw [(offset_of_offsetsOk h r).2.2 q ha ho]

end Sys2Proof
end

