-- ==== Sys2Proof/Laws/State.lean ====
section
/-! SUPPORT. One lemma per field per named update of the state (the registers, hidden state and inputs are one field,
`toHwState`), and the laws of the indexed records, of the lists of taps and of the sets of reset lines. -/

namespace Sys2Proof

variable {α : Type}

@[simp] theorem PerPll.get_set_self (x : PerPll α) (i : PllId) (a : α) : (x.set i a).get i = a := by
  cases i <;> rfl

theorem PerPll.get_set (x : PerPll α) (i j : PllId) (a : α) : (x.set i a).get j = if j = i then a else x.get j := by
  cases i <;> cases j <;> rfl

@[simp] theorem PerPll.get_ofFn (f : PllId → α) (i : PllId) : (PerPll.ofFn f).get i = f i := by
  cases i <;> rfl

theorem PerPll.ext_get {x y : PerPll α} (h : ∀ i, x.get i = y.get i) : x = y := by
  obtain ⟨⟩ := x
  obtain ⟨⟩ := y
  simp only [PerPll.mk.injEq]
  exact ⟨h .sys, h .cpu, h .usb⟩

@[simp] theorem PerCluster.get_set_self (x : PerCluster α) (i : Cluster) (a : α) : (x.set i a).get i = a := by
  cases i <;> rfl

theorem PerCluster.get_set (x : PerCluster α) (i j : Cluster) (a : α) :
    (x.set i a).get j = if j = i then a else x.get j := by
  cases i <;> cases j <;> rfl

@[simp] theorem PerCluster.get_ofFn (f : Cluster → α) (i : Cluster) : (PerCluster.ofFn f).get i = f i := by
  cases i <;> rfl

theorem PerCluster.ext_get {x y : PerCluster α} (h : ∀ i, x.get i = y.get i) : x = y := by
  obtain ⟨⟩ := x
  obtain ⟨⟩ := y
  simp only [PerCluster.mk.injEq]
  exact ⟨h .p, h .e⟩

@[simp] theorem PerPart.get_set_self (x : PerPart α) (i : Part) (a : α) : (x.set i a).get i = a := by
  cases i <;> rfl

theorem PerPart.get_set (x : PerPart α) (i j : Part) (a : α) : (x.set i a).get j = if j = i then a else x.get j := by
  cases i <;> cases j <;> rfl

@[simp] theorem PerPart.get_ofFn (f : Part → α) (i : Part) : (PerPart.ofFn f).get i = f i := by
  cases i <;> rfl

theorem PerPart.ext_get {x y : PerPart α} (h : ∀ i, x.get i = y.get i) : x = y := by
  obtain ⟨⟩ := x
  obtain ⟨⟩ := y
  simp only [PerPart.mk.injEq]
  exact ⟨h .rail, h .nonCpuP, h .cpu0P, h .nonCpuE, h .cpuE⟩

@[simp] theorem tapAt_cons_zero (t : Tap) (l : List Tap) : tapAt (t :: l) 0 = t := rfl

@[simp] theorem tapAt_cons_succ (t : Tap) (l : List Tap) (k : Nat) : tapAt (t :: l) (k + 1) = tapAt l k := rfl

@[simp] theorem tapAt_nil (k : Nat) : tapAt [] k = .off := rfl

theorem tapAt_setTap (l : List Tap) (i j : Nat) (t : Tap) :
    tapAt (setTap l i t) j = if j = i then t else tapAt l j := by
  induction l, i, t using setTap.induct generalizing j <;> cases j <;> simp_all [setTap]

@[simp] theorem tapAt_setTap_self (l : List Tap) (k : Nat) (t : Tap) : tapAt (setTap l k t) k = t := by
  simp [tapAt_setTap]

theorem length_setTap {l : List Tap} {k : Nat} (t : Tap) (h : k < l.length) : (setTap l k t).length = l.length := by
  induction l, k, t using setTap.induct <;> simp_all [setTap]

theorem tapAt_of_length_le {l : List Tap} {k : Nat} (h : l.length ≤ k) : tapAt l k = .off := by simp [tapAt, h]

theorem tapAt_map_range (n : Nat) (f : Nat → Tap) (k : Nat) :
    tapAt ((List.range n).map f) k = if k < n then f k else .off := by
  by_cases h : k < n <;> simp [tapAt, h]

/-- Two lists of as many taps are equal when they agree on every tap. -/
theorem taps_ext {x y : List Tap} (hl : x.length = y.length) (h : ∀ k, tapAt x k = tapAt y k) : x = y := by
  refine List.ext_getElem hl fun k hx hy => ?_
  simpa [tapAt, List.getD, hx, hy] using h k

/-- What is numbered from `k` on, below `n`. -/
theorem mem_numbered {n k j : Nat} {f : TapPlaces} {l : List TapPlaces} :
    (j, f) ∈ numbered n k l ↔ k ≤ j ∧ j < n ∧ l[j - k]? = some f := by
  induction l generalizing k with
  | nil => simp [numbered]
  | cons x l ih =>
    unfold numbered
    split
    · rename_i hk
      simp only [List.mem_cons, Prod.mk.injEq, ih]
      rcases Nat.lt_trichotomy j k with hj | rfl | hj
      · omega
      · simp [hk, eq_comm]
      · obtain ⟨i, rfl⟩ : ∃ i, j = k + 1 + i := ⟨j - (k + 1), by omega⟩
        have : k + 1 + i - k = (k + 1 + i - (k + 1)) + 1 := by omega
        simp [this, show k + 1 + i ≠ k by omega, show k ≤ k + 1 + i by omega]
    · simp only [List.not_mem_nil, false_iff]
      omega

/-- No number is given twice. -/
theorem numbered_nodup (n k : Nat) (l : List TapPlaces) : ((numbered n k l).map (·.1)).Nodup := by
  induction l generalizing k with
  | nil => simp [numbered]
  | cons x l ih =>
    unfold numbered
    split
    · simp only [List.map_cons, List.nodup_cons, ih, and_true, List.mem_map, Prod.exists, not_exists]
      rintro j f ⟨hm, rfl⟩
      have := (mem_numbered.1 hm).1
      omega
    · simp

/-- A tap register holds only taps its PLL has, each at its own places (rule R37). -/
theorem mem_taps {cfg : Config} {r : Reg} {k : Nat} {f : TapPlaces} (h : (k, f) ∈ r.taps cfg) :
    ∃ p, (r = .pllOutA p ∨ r = .pllOutB p) ∧ k < cfg.ntaps.get p ∧ cfg.map.place.taps[k]? = some f := by
  cases r with
  | pllOutA p =>
    obtain ⟨-, hn, hf⟩ := mem_numbered.1 h
    rw [Nat.sub_zero] at hf
    exact ⟨p, .inl rfl, hn, by rw [Places.taps, List.getElem?_append_left (List.getElem?_eq_some_iff.1 hf).1, hf]⟩
  | pllOutB p =>
    obtain ⟨hk, hn, hf⟩ := mem_numbered.1 h
    exact ⟨p, .inr rfl, hn, by rw [Places.taps, List.getElem?_append_right hk, hf]⟩
  | _ => cases h

/-- No tap register holds a tap twice. -/
theorem taps_nodup (cfg : Config) (r : Reg) : ((r.taps cfg).map (·.1)).Nodup := by
  cases r with
  | pllOutA p => exact numbered_nodup _ _ _
  | pllOutB p => exact numbered_nodup _ _ _
  | _ => exact List.nodup_nil

@[simp] theorem PerGate.get_ofFn (f : Gate → α) (i : Gate) : (PerGate.ofFn f).get i = f i := by
  cases i <;> rfl

theorem PerGate.ext_get {x y : PerGate α} (h : ∀ i, x.get i = y.get i) : x = y := by
  obtain ⟨⟩ := x
  obtain ⟨⟩ := y
  simp only [PerGate.mk.injEq]
  exact ⟨h .cpu, h .timer, h .gpio, h .memc, h .dma0, h .dma1⟩

@[simp] theorem PerKind.get_ofFn (f : LineKind → α) (i : LineKind) : (PerKind.ofFn f).get i = f i := by
  cases i <;> rfl

theorem PerKind.ext_get {x y : PerKind α} (h : ∀ i, x.get i = y.get i) : x = y := by
  obtain ⟨⟩ := x
  obtain ⟨⟩ := y
  simp only [PerKind.mk.injEq]
  exact ⟨h .cpu, h .dbg, h .core, h .wd, h .cx⟩

theorem PllId.mem_all (p : PllId) : p ∈ PllId.all := by cases p <;> decide

theorem Part.mem_all (i : Part) : i ∈ Part.all := by cases i <;> decide

theorem Gate.mem_all (g : Gate) : g ∈ Gate.all := by cases g <;> decide

theorem LineKind.mem_all (k : LineKind) : k ∈ LineKind.all := by cases k <;> decide

/-- Two sets of lines are equal when they agree on every line. -/
theorem Lines.ext_get {x y : Lines} (h : ∀ k, x.core.get k = y.core.get k) (hn : x.nonCpu = y.nonCpu) : x = y := by
  obtain ⟨a, n⟩ := x
  obtain ⟨b, m⟩ := y
  obtain rfl : a = b := PerKind.ext_get h
  obtain rfl : n = m := hn
  rfl

@[simp] theorem Lines.core_none (k : LineKind) : Lines.none.core.get k = 0 := by simp [Lines.none]

@[simp] theorem Lines.nonCpu_none : Lines.none.nonCpu = false := rfl

@[simp] theorem Lines.core_and (x y : Lines) (k : LineKind) :
    (x.and y).core.get k = x.core.get k &&& y.core.get k := by
  simp [Lines.and]

@[simp] theorem Lines.nonCpu_and (x y : Lines) : (x.and y).nonCpu = (x.nonCpu && y.nonCpu) := rfl

@[simp] theorem Lines.core_or (x y : Lines) (k : LineKind) : (x.or y).core.get k = x.core.get k ||| y.core.get k := by
  simp [Lines.or]

@[simp] theorem Lines.nonCpu_or (x y : Lines) : (x.or y).nonCpu = (x.nonCpu || y.nonCpu) := rfl

@[simp] theorem Lines.core_without (x y : Lines) (k : LineKind) :
    (x.without y).core.get k = x.core.get k &&& ~~~y.core.get k := by
  simp [Lines.without]

@[simp] theorem Lines.nonCpu_without (x y : Lines) : (x.without y).nonCpu = (x.nonCpu && !y.nonCpu) := rfl

@[simp] theorem Lines.core_ofCores (cores : Word) (b : Bool) (k : LineKind) :
    (Lines.ofCores cores b).core.get k = cores := by
  simp [Lines.ofCores]

@[simp] theorem Lines.nonCpu_ofCores (cores : Word) (b : Bool) : (Lines.ofCores cores b).nonCpu = b := rfl

/-- The cores of a cluster of `n`. -/
theorem presentCores_getLsbD (n k : Nat) (h : k < 32) : (presentCores n).getLsbD k = decide (k < n) := by
  rw [presentCores, BitVec.getLsbD_ofNat, Nat.testBit_two_pow_sub_one]
  simp [h]

/-- Two sets have no line in common. -/
theorem Lines.meets_eq_false {x y : Lines} :
    x.meets y = false ↔ (∀ k, x.core.get k &&& y.core.get k = 0) ∧ (x.nonCpu && y.nonCpu) = false := by
  unfold Lines.meets
  simp only [bne_eq_false_iff_eq]
  constructor
  · intro h
    refine ⟨fun k => ?_, ?_⟩
    · rw [← Lines.core_and, h, Lines.core_none]
    · rw [← Lines.nonCpu_and, h, Lines.nonCpu_none]
  · rintro ⟨h, hn⟩
    exact Lines.ext_get (fun k => by rw [Lines.core_and, h, Lines.core_none])
      (by rw [Lines.nonCpu_and, hn, Lines.nonCpu_none])

namespace Machine

/-! `log` -/

@[simp] theorem log_toHwState (s : State) (e : Event) : (s.log e).toHwState = s.toHwState := rfl
@[simp] theorem log_cfg (s : State) (e : Event) : (s.log e).cfg = s.cfg := rfl
@[simp] theorem log_entry (s : State) (e : Event) : (s.log e).entry = s.entry := rfl
@[simp] theorem log_fault (s : State) (e : Event) : (s.log e).fault = s.fault := rfl
@[simp] theorem log_refused (s : State) (e : Event) : (s.log e).refused = s.refused := rfl
@[simp] theorem log_history (s : State) (e : Event) : (s.log e).history = s.history ++ [e] := rfl
@[simp] theorem log_master (s : State) (e : Event) : (s.log e).master = s.master := rfl
@[simp] theorem log_sched (s : State) (e : Event) : (s.log e).sched = s.sched := rfl
@[simp] theorem log_drawn (s : State) (e : Event) : (s.log e).drawn = s.drawn := rfl

/-! `logWrite` -/

@[simp] theorem logWrite_toHwState (s : State) (r : Reg) (d : Word) : (s.logWrite r d).toHwState = s.toHwState := rfl
@[simp] theorem logWrite_cfg (s : State) (r : Reg) (d : Word) : (s.logWrite r d).cfg = s.cfg := rfl
@[simp] theorem logWrite_entry (s : State) (r : Reg) (d : Word) : (s.logWrite r d).entry = s.entry := rfl
@[simp] theorem logWrite_fault (s : State) (r : Reg) (d : Word) : (s.logWrite r d).fault = s.fault := rfl
@[simp] theorem logWrite_refused (s : State) (r : Reg) (d : Word) : (s.logWrite r d).refused = s.refused := rfl
@[simp] theorem logWrite_history (s : State) (r : Reg) (d : Word) :
    (s.logWrite r d).history = s.history ++ [.wr r (r.addr s.cfg) d] := rfl
@[simp] theorem logWrite_master (s : State) (r : Reg) (d : Word) : (s.logWrite r d).master = s.master := rfl
@[simp] theorem logWrite_sched (s : State) (r : Reg) (d : Word) : (s.logWrite r d).sched = s.sched := rfl
@[simp] theorem logWrite_drawn (s : State) (r : Reg) (d : Word) : (s.logWrite r d).drawn = s.drawn := rfl

/-! `gotRead` -/

@[simp] theorem gotRead_toHwState (s : State) (r : Reg) (v : Word) : (s.gotRead r v).toHwState = s.toHwState := rfl
@[simp] theorem gotRead_cfg (s : State) (r : Reg) (v : Word) : (s.gotRead r v).cfg = s.cfg := rfl
@[simp] theorem gotRead_entry (s : State) (r : Reg) (v : Word) : (s.gotRead r v).entry = s.entry := rfl
@[simp] theorem gotRead_fault (s : State) (r : Reg) (v : Word) : (s.gotRead r v).fault = s.fault := rfl
@[simp] theorem gotRead_refused (s : State) (r : Reg) (v : Word) : (s.gotRead r v).refused = s.refused := rfl
@[simp] theorem gotRead_history (s : State) (r : Reg) (v : Word) :
    (s.gotRead r v).history = s.history ++ [.rd r (r.addr s.cfg) v] := rfl
@[simp] theorem gotRead_master (s : State) (r : Reg) (v : Word) :
    (s.gotRead r v).master = { s.master with v := v } := rfl
@[simp] theorem gotRead_sched (s : State) (r : Reg) (v : Word) : (s.gotRead r v).sched = s.sched := rfl
@[simp] theorem gotRead_drawn (s : State) (r : Reg) (v : Word) : (s.gotRead r v).drawn = s.drawn := rfl

/-! `withFault` -/

@[simp] theorem withFault_toHwState (s : State) (k : Fault) : (s.withFault k).toHwState = s.toHwState := rfl
@[simp] theorem withFault_cfg (s : State) (k : Fault) : (s.withFault k).cfg = s.cfg := rfl
@[simp] theorem withFault_entry (s : State) (k : Fault) : (s.withFault k).entry = s.entry := rfl
@[simp] theorem withFault_fault (s : State) (k : Fault) : (s.withFault k).fault = some (s.fault.getD k) := rfl
@[simp] theorem withFault_refused (s : State) (k : Fault) : (s.withFault k).refused = s.refused := rfl
@[simp] theorem withFault_history (s : State) (k : Fault) : (s.withFault k).history = s.history := rfl
@[simp] theorem withFault_master (s : State) (k : Fault) : (s.withFault k).master = s.master := rfl
@[simp] theorem withFault_sched (s : State) (k : Fault) : (s.withFault k).sched = s.sched := rfl
@[simp] theorem withFault_drawn (s : State) (k : Fault) : (s.withFault k).drawn = s.drawn := rfl

/-! `load` -/

@[simp] theorem load_toHwState (s : State) (ops : List Op) : (s.load ops).toHwState = s.toHwState := rfl
@[simp] theorem load_cfg (s : State) (ops : List Op) : (s.load ops).cfg = s.cfg := rfl
@[simp] theorem load_entry (s : State) (ops : List Op) : (s.load ops).entry = s.entry := rfl
@[simp] theorem load_fault (s : State) (ops : List Op) : (s.load ops).fault = s.fault := rfl
@[simp] theorem load_refused (s : State) (ops : List Op) : (s.load ops).refused = s.refused := rfl
@[simp] theorem load_history (s : State) (ops : List Op) : (s.load ops).history = s.history := rfl
@[simp] theorem load_master (s : State) (ops : List Op) : (s.load ops).master = { s.master with prog := ops } := rfl
@[simp] theorem load_sched (s : State) (ops : List Op) : (s.load ops).sched = s.sched := rfl
@[simp] theorem load_drawn (s : State) (ops : List Op) : (s.load ops).drawn = s.drawn := rfl

/-! `settle` -/

@[simp] theorem settle_toHwState (s : State) : (s.settle).toHwState = s.toHwState := rfl
@[simp] theorem settle_cfg (s : State) : (s.settle).cfg = s.cfg := rfl
@[simp] theorem settle_entry (s : State) : (s.settle).entry = s.entry := rfl
@[simp] theorem settle_fault (s : State) : (s.settle).fault = s.fault := rfl
@[simp] theorem settle_refused (s : State) : (s.settle).refused = s.refused := rfl
@[simp] theorem settle_history (s : State) : (s.settle).history = s.history := rfl
@[simp] theorem settle_master (s : State) : (s.settle).master = settleOps s.cfg 0 s.master.prog s.master := rfl
@[simp] theorem settle_sched (s : State) : (s.settle).sched = s.sched := rfl
@[simp] theorem settle_drawn (s : State) : (s.settle).drawn = s.drawn := rfl

end Machine

end Sys2Proof
end

