-- ==== Sys2Proof/Laws/Ops.lean ====
section
/-! SUPPORT. For each shared operation, everything it can do when it gives a next state. -/

namespace Sys2Proof.Machine

open Sys2Proof

/-- The clock check looks at the selectors, the CPU gate, the PLLs and the taps, and at nothing else. -/
theorem clockFault_congr {s t : State} (h1 : t.cfg = s.cfg) (h2 : t.sysSrc = s.sysSrc) (h3 : t.cpuSrc = s.cpuSrc)
    (h4 : t.clkEnb.cpu = s.clkEnb.cpu) (h5 : t.pllBase = s.pllBase) (h6 : t.pllStable = s.pllStable)
    (h7 : t.taps = s.taps) : clockFault t = clockFault s := by
  have hp : pllOutOk t = pllOutOk s := by funext p; simp only [pllOutOk, h5, h6]
  have ht : sysTapOk t = sysTapOk s := by funext k; simp only [sysTapOk, tapOk, hp, h1, h2, h7]
  have hs : sclkOk t = sclkOk s := by unfold sclkOk; rw [h1, h2, hp, ht]
  have hc : cclkOk t = cclkOk s := by unfold cclkOk; rw [h1, h3, hp]
  unfold clockFault cpuGateOpen
  rw [hs, hc, h4]

/-- A step that only makes PLL outputs clean passes the clock check: it "can only pass" (rule R147). -/
theorem clockFault_mono {s t : State} (h1 : t.cfg = s.cfg) (h2 : t.sysSrc = s.sysSrc) (h3 : t.cpuSrc = s.cpuSrc)
    (h4 : t.clkEnb.cpu = s.clkEnb.cpu) (h5 : t.taps = s.taps) (hp : ∀ p, pllOutOk s p = true → pllOutOk t p = true)
    (h : clockFault s = none) : clockFault t = none := by
  have ht : ∀ k, sysTapOk s k = true → sysTapOk t k = true := by
    simp only [sysTapOk, tapOk, h1, h2, h5, Bool.and_eq_true]
    exact fun k ⟨a, ⟨b, c⟩, d⟩ => ⟨a, ⟨hp _ b, c⟩, d⟩
  have hs : sclkOk s = true → sclkOk t = true := by
    simp only [sclkOk, h1, h2, Bool.or_eq_true, Bool.and_eq_true, List.any_eq_true]
    exact Or.imp (Or.imp_right (And.imp_right (hp _))) fun ⟨k, a, b⟩ => ⟨k, a, ht k b⟩
  have hc : cclkOk s = true → cclkOk t = true := by
    simp only [cclkOk, h1, h3, Bool.or_eq_true, Bool.and_eq_true]
    exact Or.imp (Or.imp_right (And.imp_right (hp _))) (And.imp_right (hp _))
  have h' : sclkOk s = true ∧ (cpuGateOpen s = true → cclkOk s = true) := by
    unfold clockFault at h
    split at h
    · cases h
    · split at h
      · cases h
      · simp_all
  unfold clockFault
  rw [if_neg (by simp [hs h'.1]), if_neg]
  have hg : cpuGateOpen t = cpuGateOpen s := h4
  rw [hg, Bool.and_eq_true]
  exact fun ⟨a, b⟩ => by simp [hc (h'.2 a)] at b

@[simp] theorem clockFault_log (s : State) (e : Event) : clockFault (s.log e) = clockFault s := rfl

@[simp] theorem clockFault_logWrite (s : State) (r : Reg) (d : Word) :
    clockFault (s.logWrite r d) = clockFault s := rfl

@[simp] theorem clockFault_stored (s : State) (r : Reg) (d : Word) :
    clockFault (s.stored r d) = clockFault (storesOf d s r) := rfl

@[simp] theorem clockFault_gotRead (s : State) (r : Reg) (v : Word) : clockFault (s.gotRead r v) = clockFault s := rfl

@[simp] theorem clockFault_load (s : State) (ops : List Op) : clockFault (s.load ops) = clockFault s := rfl

@[simp] theorem clockFault_settle (s : State) : clockFault s.settle = clockFault s := rfl

theorem onNext_next {f : State → State} {x : Result} {t : State} :
    onNext f x = .next t ↔ ∃ u, x = .next u ∧ t = f u := by
  cases x <;> simp [onNext, eq_comm (a := t)]

theorem ifPresent_next {r : Reg} {s t : State} {k : Result} :
    ifPresent r s k = .next t ↔ r.present s.cfg = true ∧ k = .next t := by
  unfold ifPresent refuse
  split <;> simp_all

theorem commit_next {s t : State} : commit s = .next t ↔ clockFault s = none ∧ t = s := by
  unfold commit raise
  split <;> simp_all [eq_comm (a := t)]

/-- The clock check raises `ClockLost` and nothing else. -/
theorem clockFault_some {s : State} {k : Fault} (h : clockFault s = some k) : ∃ d, k = .clockLost d := by
  unfold clockFault at h
  split at h
  · exact ⟨_, (Option.some.inj h).symm⟩
  · split at h
    · exact ⟨_, (Option.some.inj h).symm⟩
    · cases h

theorem commit_fault {s : State} {k : Fault} : commit s = .fault k ↔ clockFault s = some k := by
  unfold commit raise
  split <;> simp_all

theorem store_fault {r : Reg} {d : Word} {s : State} {k : Fault} :
    store r d s = .fault k ↔ clockFault (storesOf d s r) = some k := by
  simp [store, commit_fault]

/-! What a step's outcome leaves of a run. -/

@[simp] theorem mark_next (s t : State) (left : Fault → State) : mark s left (.next t) = t := rfl

@[simp] theorem mark_fault (s : State) (left : Fault → State) (k : Fault) :
    mark s left (.fault k) = (left k).withFault k := rfl

@[simp] theorem mark_refused (s : State) (left : Fault → State) (r : Refusal) :
    mark s left (.refused r) = { s with refused := true } := rfl

theorem readReg_next {r : Reg} {v : Word} {s t : State} :
    readReg r v s = .next t ↔ r.present s.cfg = true ∧ t = s.gotRead r v := by
  simp [readReg, ifPresent_next, eq_comm (a := t)]

theorem store_next {r : Reg} {d : Word} {s t : State} :
    store r d s = .next t ↔ clockFault (storesOf d s r) = none ∧ t = s.stored r d := by
  simp [store, commit_next]

theorem agentDone_next {a : HwAgent} {s t : State} :
    agentDone a s = .next t ↔ clockFault s = none ∧ t = s.log (.agent a) := by
  simp [agentDone, commit_next]

theorem writeReg_next {r : Reg} {d : Word} {s t : State} :
    writeReg r d s = .next t ↔ r.present s.cfg = true ∧ clockFault (storesOf d s r) = none ∧ t = s.stored r d := by
  simp [writeReg, ifPresent_next, store_next]

theorem agentStepWith_next {d : Draw} {a : HwAgent} {s t : State} :
    agentStepWith d a s = .next t ↔
      (agentPresent s.cfg a = true ∧ agentEnabled s a = true ∧ clockFault (agentEffect d a s) = none ∧
        t = (agentEffect d a s).log (.agent a)) ∨
      ((agentPresent s.cfg a && agentEnabled s a) = false ∧ t = s) := by
  unfold agentStepWith
  split <;> simp_all [agentDone_next, eq_comm (a := t)]

/-- A master that has a next command issues it and goes on to the one after; one that has none stays. -/
theorem issueNext_next {s t : State} :
    issueNext s = .next t ↔
      (∃ c rest u, s.master.prog = .cmd c :: rest ∧ issue c (s.load rest) = .next u ∧ t = u.settle) ∨
      ((∀ c rest, s.master.prog ≠ .cmd c :: rest) ∧ t = s) := by
  unfold issueNext
  split
  · rename_i c rest h
    simp [h, onNext_next]
  · rename_i h
    simp_all [eq_comm (a := t)]

/-- A step of a run that has not ended is the step of the agent the schedule names. -/
theorem step_next {s t : State} :
    step s = .next t ↔ s.fault = none ∧ s.refused = false ∧ scheduledStep s = .next t := by
  unfold step
  split <;> simp_all
  split <;> simp_all

/-- What the schedule makes of a step: the master's, or one agent's. -/
theorem scheduledStep_next {s t : State} :
    scheduledStep s = .next t ↔
      (s.sched = [] ∧ masterStep s = .next t) ∨
      (∃ rest, s.sched = .master :: rest ∧ masterStep { s with sched := rest } = .next t) ∨
      (∃ a rest, s.sched = .agent a :: rest ∧ agentStep a { s with sched := rest } = .next t) := by
  unfold scheduledStep
  split
  · simp_all
  · rename_i m rest h
    cases m <;> simp_all [takeMove]

/-- The statements that take no step change the master only. -/
theorem settle_eq (s : State) : s.settle = { s with master := s.settle.master } := rfl

end Sys2Proof.Machine
end

