-- ==== Sys2Proof/Laws/Meanings.lean ====
section
/-! SUPPORT. What a write of a tap register stores, and when the writes whose rules name a check of their own give a
next state, and which. -/

namespace Sys2Proof.Machine

open Sys2Proof

/-- A tap no held place stores keeps its value. -/
theorem tapAt_storeTaps_other {held : List (Nat × TapPlaces)} {d : Word} {l : List Tap} {k : Nat}
    (h : k ∉ held.map (·.1)) : tapAt (storeTaps held d l) k = tapAt l k := by
  induction held generalizing l with
  | nil => rfl
  | cons x held ih =>
    rw [List.map_cons, List.mem_cons, not_or] at h
    rw [storeTaps, List.foldl_cons]
    exact (ih h.2).trans (by rw [tapAt_setTap, if_neg h.1])

/-- A held tap takes its fields from the word (rule R151). -/
theorem tapAt_storeTaps_held {held : List (Nat × TapPlaces)} {d : Word} {l : List Tap} {k : Nat} {f : TapPlaces}
    (hn : (held.map (·.1)).Nodup) (h : (k, f) ∈ held) : tapAt (storeTaps held d l) k = tapOfWord f d := by
  induction held generalizing l with
  | nil => cases h
  | cons x held ih =>
    rw [List.map_cons, List.nodup_cons] at hn
    rw [storeTaps, List.foldl_cons]
    rcases List.mem_cons.1 h with rfl | h
    · exact (tapAt_storeTaps_other hn.1).trans (tapAt_setTap_self _ _ _)
    · exact ih hn.2 h

/-- A write of taps a PLL has leaves it as many. -/
theorem length_storeTaps {held : List (Nat × TapPlaces)} {l : List Tap} (d : Word) (h : ∀ x ∈ held, x.1 < l.length) :
    (storeTaps held d l).length = l.length := by
  induction held generalizing l with
  | nil => rfl
  | cons x held ih =>
    have hx := length_setTap (tapOfWord x.2 d) (h x (by simp))
    rw [storeTaps, List.foldl_cons]
    exact (ih fun y hy => hx ▸ h y (by simp [hy])).trans hx

theorem writePllBase_next {p : PllId} {d : Word} {s t : State} :
    writePllBase p d s = .next t ↔
      (Reg.pllBase p).present s.cfg = true ∧
        reprogramsEnabled (s.pllBase.get p) (pllBaseOfWord s.cfg.map d) = false ∧
        clockFault (storesOf d s (.pllBase p)) = none ∧ t = s.stored (.pllBase p) d := by
  unfold writePllBase raise
  rw [ifPresent_next]
  split <;> simp_all [store_next]

theorem writeTaps_next {r : Reg} {p : PllId} {d : Word} {s t : State} :
    writeTaps r p d s = .next t ↔
      r.present s.cfg = true ∧ (r.taps s.cfg).find? (tapHazard s p d) = none ∧
        clockFault (storesOf d s r) = none ∧ t = s.stored r d := by
  unfold writeTaps raise
  rw [ifPresent_next]
  split <;> simp_all [store_next]

theorem writeRstCmplxClr_next {c : Cluster} {d : Word} {s t : State} :
    writeRstCmplxClr c d s = .next t ↔
      (Reg.rstCmplxClr c).present s.cfg = true ∧ (releasedLines s c d).meets otherCoresLines = false ∧
        releaseFault s c (releasedLines s c d) = none ∧ clockFault (storesOf d s (.rstCmplxClr c)) = none ∧
        t = s.stored (.rstCmplxClr c) d := by
  unfold writeRstCmplxClr raise refuse
  rw [ifPresent_next]
  split
  · simp_all
  · split <;> simp_all [store_next]

theorem execWrClkEnb_next {d : Word} {s t : State} :
    execWrClkEnb d s = .next t ↔
      gateOpensBadly s d = false ∧ clockFault (storesOf d s .clkEnb) = none ∧ t = s.stored .clkEnb d := by
  unfold execWrClkEnb raise
  rw [ifPresent_next]
  split <;> simp_all [store_next, Reg.present]

theorem execWrRstDevClr_next {d : Word} {s t : State} :
    execWrRstDevClr d s = .next t ↔
      complexUnpowered s d = false ∧ clockFault (storesOf d s .rstDevClr) = none ∧ t = s.stored .rstDevClr d := by
  unfold execWrRstDevClr raise
  rw [ifPresent_next]
  split <;> simp_all [store_next, Reg.present]

theorem execWrPwrgateToggle_next {d : Word} {s t : State} :
    execWrPwrgateToggle d s = .next t ↔
      clockFault s = none ∧ t = s.stored .pwrgateToggle d ∧
        (startsToggleWord s.cfg.map d = true →
          ∃ i, partOfId s.cfg.map (partIdOfWord s.cfg.map d) = some i ∧ toggleBusy s = false ∧
            breaksDependency s i = false) := by
  have h : clockFault (storesOf d s .pwrgateToggle) = clockFault s := rfl
  unfold execWrPwrgateToggle raise refuse
  rw [ifPresent_next]
  simp only [Reg.present, true_and]
  split
  · simp_all [store_next]
  · split
    · simp_all
    · split
      · simp_all
      · split <;> simp_all [store_next]

theorem execWrRemoveClampingCmd_next {d : Word} {s t : State} :
    execWrRemoveClampingCmd d s = .next t ↔
      unpoweredClamp s d = none ∧ clockFault s = none ∧ t = s.stored .removeClampingCmd d := by
  have h : clockFault (storesOf d s .removeClampingCmd) = clockFault s := rfl
  unfold execWrRemoveClampingCmd raise
  rw [ifPresent_next]
  simp only [Reg.present, true_and]
  split <;> simp_all [store_next]

theorem execWrTmrPtv_next {d : Word} {s t : State} :
    execWrTmrPtv d s = .next t ↔
      (ptvOfWord s.cfg.map d).toNat ≤ s.cfg.tmrMax ∧ clockFault s = none ∧ t = s.stored .tmrPtv d := by
  have h : clockFault (storesOf d s .tmrPtv) = clockFault s := by
    simp only [storesOf, storedTimer]
    split <;> rfl
  unfold execWrTmrPtv refuse
  rw [ifPresent_next]
  simp only [Reg.present, true_and]
  split <;> simp_all [store_next]

theorem execWrClusterControl_next {d : Word} {s t : State} :
    execWrClusterControl d s = .next t ↔
      (clusterOfWord s.cfg.map d = .e → s.cfg.dualCluster = true) ∧ clockFault s = none ∧
        t = s.stored .clusterControl d := by
  have h : clockFault (storesOf d s .clusterControl) = clockFault s := rfl
  unfold execWrClusterControl refuse
  rw [ifPresent_next]
  simp only [Reg.present, true_and]
  split <;> simp_all [store_next]

/-- A read command of register `r` is a read of some value: it changes `history` and the master's `v` only. -/
theorem exec_rd (r : Reg) (s : State) : ∃ v, exec (.rd r) s = readReg r v s := by
  cases r <;> first | exact ⟨_, rfl⟩ | (rename_i x; cases x <;> exact ⟨_, rfl⟩)

end Sys2Proof.Machine
end

