-- ==== Sys2Proof/Laws/Operands.lean ====
section
/-! SUPPORT. The bits of an assembled word, the rows and codes of the oscillators, and what a read and a write answer
when nothing stops them. -/

namespace Sys2Proof.Machine

open Sys2Proof

theorem cutTo_getLsbD (f : FieldPlace) (x : Word) (i : Nat) :
    (cutTo f x).getLsbD i = (decide (i < f.width) && x.getLsbD i) := by
  simp only [cutTo, BitVec.getLsbD_setWidth]
  by_cases h : i < 32
  · simp [h]
  · simp [h, BitVec.getLsbD_of_ge x i (Nat.not_lt.1 h)]

theorem putField_getLsbD (f : FieldPlace) (x : Word) (i : Nat) (h : i < 32) :
    (putField f x).getLsbD i = (decide (f.lo ≤ i) && decide (i - f.lo < f.width) && x.getLsbD (i - f.lo)) := by
  simp only [putField, BitVec.getLsbD_shiftLeft, cutTo_getLsbD, h, decide_true, Bool.true_and]
  by_cases h' : f.lo ≤ i
  · simp [h', Nat.not_lt.2 h']
  · simp [h', Nat.not_le.1 h']

theorem placeBit_getLsbD (lo : Nat) (b : Bool) (i : Nat) (h : i < 32) :
    (placeBit lo b).getLsbD i = (decide (i = lo) && b) := by
  simp only [placeBit, BitVec.getLsbD_shiftLeft, BitVec.getLsbD_setWidth, BitVec.getLsbD_ofBool, h, decide_true,
    Bool.true_and]
  by_cases h' : i = lo
  · simp [h']
  · by_cases h2 : lo ≤ i
    · simp [h', show i - lo ≠ 0 by omega]
    · simp [h', Nat.not_le.1 h2]

theorem fieldOf_getLsbD (f : FieldPlace) (d : Word) (i : Nat) :
    (fieldOf f d).getLsbD i = (decide (i < f.width) && d.getLsbD (f.lo + i) && decide (i < 32)) := by
  simp [fieldOf, BitVec.getLsbD_extractLsb', Bool.and_comm]

/-- A field of a word fits its place. -/
theorem fieldOf_holds (f : FieldPlace) (d : Word) : f.holds (fieldOf f d) = true := by
  simp only [FieldPlace.holds, fieldOf, BitVec.toNat_setWidth, decide_eq_true_eq]
  exact Nat.lt_of_le_of_lt (Nat.mod_le _ _) (BitVec.isLt _)

/-- What is cut to a field's width fits it. -/
theorem cutTo_holds (f : FieldPlace) (x : Word) : f.holds (cutTo f x) = true := by
  simp only [FieldPlace.holds, cutTo, BitVec.toNat_setWidth, decide_eq_true_eq]
  exact Nat.lt_of_le_of_lt (Nat.mod_le _ _) (Nat.mod_lt _ (Nat.two_pow_pos _))

/-- Cutting a value that fits changes nothing. -/
theorem cutTo_of_holds {f : FieldPlace} {x : Word} (h : f.holds x = true) : cutTo f x = x := by
  simp only [FieldPlace.holds, decide_eq_true_eq] at h
  apply BitVec.eq_of_toNat_eq
  simp [cutTo, Nat.mod_eq_of_lt h, Nat.mod_eq_of_lt x.isLt]

/-- The search for a key finds the row that has it, where keys tell the rows apart. -/
theorem find_of_key {α β : Type} [BEq β] [LawfulBEq β] {l : List α} {f : α → β} {x : α} (h : (l.map f).Nodup)
    (hx : x ∈ l) : l.find? (fun y => f y == f x) = some x := by
  rw [List.find?_eq_some_iff_getElem]
  obtain ⟨i, hi, rfl⟩ := List.getElem_of_mem hx
  refine ⟨beq_self_eq_true _, i, hi, rfl, fun j hj => ?_⟩
  simpa using fun e => absurd ((h.getElem_inj_iff (i := j) (j := i) (hi := by simpa using hj.trans hi)
    (hj := by simpa using hi)).1 (by simpa using e)) hj.ne

/-- What a well-formed set of oscillators gives: different frequencies and codes, none of them "unknown". -/
theorem oscSetOk_keys {cfg : Config} (h : cfg.oscSetOk = true) :
    (cfg.oscSet.map (·.kHz)).Nodup ∧ (cfg.oscSet.map (·.code)).Nodup ∧
      ∀ x ∈ cfg.oscSet, x.code ≠ cfg.map.oscUnknown := by
  rw [Config.oscSetOk, Bool.and_eq_true, Bool.and_eq_true, Bool.and_eq_true, List.all_eq_true] at h
  refine ⟨of_decide_eq_true h.1.1.1, of_decide_eq_true h.1.1.2, fun x hx => ?_⟩
  have row := h.1.2 x hx
  rw [Bool.and_eq_true] at row
  exact bne_iff_ne.1 row.2

/-- The row of an oscillator's code is that oscillator (rule R276). -/
theorem oscRow_of_mem {cfg : Config} {x : Oscillator} (h : cfg.oscSetOk = true) (hx : x ∈ cfg.oscSet) :
    oscRow cfg x.code = x := by
  rw [oscRow, find_of_key (f := (·.code)) (oscSetOk_keys h).2.1 hx, Option.getD_some]

/-- The row of any other code is `OSC_DEFAULT` (rule R276). -/
theorem oscRow_of_unsupported {cfg : Config} {code : Word} (h : oscSupported cfg code = false) :
    oscRow cfg code = cfg.oscDefault := by
  rw [oscRow, List.find?_eq_none.2 (by simpa [oscSupported] using h), Option.getD_none]

/-- The "unknown" code is not supported (rules R106, R252). -/
theorem oscUnknown_unsupported {cfg : Config} (h : cfg.oscSetOk = true) :
    oscSupported cfg cfg.map.oscUnknown = false := by
  simpa [oscSupported] using (oscSetOk_keys h).2.2

/-- A fitted crystal of the set is the one with its frequency (rule R54). -/
theorem crystalOf_of_mem {cfg : Config} {x : Oscillator} (h : cfg.oscSetOk = true) (hx : x ∈ cfg.oscSet) :
    crystalOf cfg (some x.kHz) = some x := by
  have key := find_of_key (f := (·.kHz)) (oscSetOk_keys h).1 hx
  rw [← key, crystalOf]
  congr 1
  funext y
  rw [Bool.eq_iff_iff]
  simpa using eq_comm

/-- A count in a row's range converts to that row's code (rules R257, R258). -/
theorem codeOfCount_of_mem {cfg : Config} {x : Oscillator} {n : Word} (h : cfg.rangesOk = true) (hx : x ∈ cfg.oscSet)
    (hn : x.range.holds n = true) : codeOfCount cfg n = x.code := by
  rw [Config.rangesOk, Bool.and_eq_true, decide_eq_true_eq] at h
  obtain ⟨i, hi, rfl⟩ := List.getElem_of_mem hx
  have key : cfg.oscSet.find? (fun y => y.range.holds n) = some cfg.oscSet[i] := by
    refine List.find?_eq_some_iff_getElem.2 ⟨hn, i, hi, rfl, fun j hj => ?_⟩
    have apart := List.pairwise_iff_getElem.1 h.2 j i (by omega) hi hj
    simp only [CountRange.apart, CountRange.holds, Bool.or_eq_true, Bool.and_eq_true, decide_eq_true_eq,
      Bool.not_eq_true', Bool.and_eq_false_iff, decide_eq_false_iff_not] at apart hn ⊢
    bv_omega
  rw [codeOfCount, key]

/-- A count in no range converts to "unknown" (rules R257, R258). -/
theorem codeOfCount_of_outside {cfg : Config} {n : Word} (h : cfg.outside n = true) :
    codeOfCount cfg n = cfg.map.oscUnknown := by
  rw [Config.outside, Bool.and_eq_true, List.all_eq_true] at h
  rw [codeOfCount, List.find?_eq_none.2 (by simpa using h.2)]

/-- A read of a present register completes with its read value. -/
theorem readReg_of_present {r : Reg} {s : State} {v w : Word} {x : Result} (hx : x = readReg r v s)
    (h : r.present s.cfg = true) (e : v = w) : x = .next (s.gotRead r w) := by
  subst e hx
  simp [readReg, ifPresent, h]

theorem ifPresent_of_present {r : Reg} {s : State} {k : Result} (h : r.present s.cfg = true) :
    ifPresent r s k = k := by
  simp [ifPresent, h]

theorem store_of_clocks {r : Reg} {d : Word} {s : State} (h : clockFault (storesOf d s r) = none) :
    store r d s = .next (s.stored r d) := by
  simp [store, commit, h]

theorem store_of_lost {r : Reg} {d : Word} {s : State} {k : Fault} (h : clockFault (storesOf d s r) = some k) :
    store r d s = .fault k := by
  simp [store, commit, h, raise]

theorem agentStepWith_of_enabled {d : Draw} {a : HwAgent} {s : State} (hp : agentPresent s.cfg a = true)
    (he : agentEnabled s a = true) (hc : clockFault (agentEffect d a s) = none) :
    agentStepWith d a s = .next ((agentEffect d a s).log (.agent a)) := by
  simp [agentStepWith, hp, he, agentDone, commit, hc]

end Sys2Proof.Machine
end

