-- ==== Sys2Proof/Laws/Fields.lean ====
section
/-! SUPPORT. Fields and their widths: what fits a field, and that no write stores more than its field holds. -/

namespace Sys2Proof

/-- A field's values are closed under union of their bits. -/
theorem FieldPlace.or_holds {f : FieldPlace} {x y : Word} (hx : f.holds x = true) (hy : f.holds y = true) :
    f.holds (x ||| y) = true := by
  simp only [FieldPlace.holds, decide_eq_true_eq, BitVec.toNat_or] at *
  exact Nat.or_lt_two_pow hx hy

/-- Some bits of a value that fits a field fit it. -/
theorem FieldPlace.and_holds {f : FieldPlace} {x : Word} (y : Word) (hx : f.holds x = true) :
    f.holds (x &&& y) = true := by
  simp only [FieldPlace.holds, decide_eq_true_eq, BitVec.toNat_and] at *
  exact Nat.lt_of_le_of_lt Nat.and_le_left hx

/-- Kind by kind. -/
theorem Lines.fit_iff {m : RegMap} {x : Lines} :
    x.fit m = true ↔ ∀ k, (m.place.lines.get k).holds (x.core.get k) = true := by
  simp [Lines.fit, LineKind.all]
  constructor
  · rintro ⟨h1, h2, h3, h4, h5⟩ k
    cases k <;> assumption
  · intro h
    exact ⟨h _, h _, h _, h _, h _⟩

/-- Tap by tap. -/
theorem tapsFit_iff {places : List TapPlaces} {taps : List Tap} :
    (places.zip taps).all (fun x => x.1.ratio.holds x.2.ratio) = true ↔
      ∀ (k : Nat) f, places[k]? = some f → f.ratio.holds (tapAt taps k).ratio = true := by
  induction places generalizing taps with
  | nil => simp
  | cons f places ih =>
    cases taps with
    | nil => simp [Tap.off, FieldPlace.holds]
    | cons t taps =>
      rw [List.zip_cons_cons, List.all_cons, Bool.and_eq_true, ih]
      constructor
      · rintro ⟨h0, h⟩ (_ | k) g hg
        · simp_all
        · exact h k g hg
      · intro h
        exact ⟨h 0 f rfl, fun k g hg => h (k + 1) g hg⟩

/-- Field by field. -/
theorem HwState.fits_iff {m : RegMap} {h : HwState} :
    h.fits m = true ↔
      m.place.oscFreq.holds h.oscFreq = true ∧ m.place.pllRefDiv.holds h.pllRefDiv = true ∧
      m.place.refClkWin.holds h.refClkWin = true ∧ m.place.detCount.holds h.detCount = true ∧
      m.place.sysSrc.holds h.sysSrc = true ∧ h.sclkDivider.fits m.place.sclkDivider = true ∧
      m.place.cpuSrc.holds h.cpuSrc = true ∧ h.cclkDivider.fits m.place.cclkDivider = true ∧
      (∀ c, (h.rstCmplx.get c).fit m = true) ∧ (∀ p, (h.pllBase.get p).fits m = true) ∧
      (∀ p, m.place.setup.holds (h.pllMisc.get p).setup = true) ∧
      (∀ p (k : Nat) f, m.place.taps[k]? = some f → f.ratio.holds (tapAt (h.taps.get p) k).ratio = true) ∧
      m.place.partId.holds h.partId = true ∧ m.place.ptv.holds h.tmrPtv = true ∧
      m.place.usecDividend.holds h.usecDividend = true ∧ m.place.usecDivisor.holds h.usecDivisor = true ∧
      m.place.birOscFreq.holds h.bir.oscFreq = true := by
  have hp : ∀ (P : PllId → Prop), (∀ p, P p) ↔ P .sys ∧ P .cpu ∧ P .usb :=
    fun P => ⟨fun h => ⟨h _, h _, h _⟩, fun h x => by cases x <;> simp_all⟩
  have hc : ∀ (P : Cluster → Prop), (∀ c, P c) ↔ P .p ∧ P .e :=
    fun P => ⟨fun h => ⟨h _, h _⟩, fun h x => by cases x <;> simp_all⟩
  simp only [← tapsFit_iff]
  simp only [HwState.fits, PllId.all, List.all_cons, List.all_nil, Bool.and_true, Bool.and_eq_true, hp, hc]
  constructor <;> intro h <;> simp_all [PerCluster.get]

end Sys2Proof

namespace Sys2Proof.Machine

open Sys2Proof

/-- The lines a word names fit their fields. -/
theorem linesOfWord_fit (m : RegMap) (d : Word) : (linesOfWord m d).fit m = true :=
  Lines.fit_iff.2 fun k => by simp [linesOfWord, fieldOf_holds]

/-- Stored taps fit their fields. -/
theorem storeTaps_fit {cfg : Config} (r : Reg) (d : Word) {l : List Tap}
    (h : ∀ (k : Nat) f, cfg.map.place.taps[k]? = some f → f.ratio.holds (tapAt l k).ratio = true)
    (k : Nat) (f : TapPlaces) (hf : cfg.map.place.taps[k]? = some f) :
    f.ratio.holds (tapAt (storeTaps (r.taps cfg) d l) k).ratio = true := by
  by_cases hk : k ∈ (r.taps cfg).map (·.1)
  · obtain ⟨⟨k, g⟩, hm, rfl⟩ := List.mem_map.1 hk
    obtain ⟨-, -, -, hg⟩ := mem_taps hm
    obtain rfl : g = f := Option.some.inj (hg.symm.trans hf)
    rw [tapAt_storeTaps_held (taps_nodup cfg r) hm]
    exact fieldOf_holds _ _
  · rw [tapAt_storeTaps_other hk]
    exact h k f hf

/-- A stored divider fits its fields. -/
theorem dividerOfWord_fits (p : DividerPlaces) (d : Word) : (dividerOfWord p d).fits p = true := by
  simp [Divider.fits, dividerOfWord, fieldOf_holds]

/-- Every write keeps every field at a value of its width. -/
theorem storesOf_fits {d : Word} {s : State} {r : Reg} (h : s.toHwState.fits s.cfg.map = true) :
    (storesOf d s r).toHwState.fits s.cfg.map = true := by
  rw [HwState.fits_iff] at h ⊢
  obtain ⟨h1, h2, h3, h4, h5, h6, h7, h8, h9, h10, h11, h12, h13, h14, h15, h16, h17⟩ := h
  cases r with
  | oscCtrl =>
    exact ⟨fieldOf_holds _ _, fieldOf_holds _ _, h3, h4, h5, h6, h7, h8, h9, h10, h11, h12, h13, h14, h15, h16, h17⟩
  | oscFreqDet =>
    exact ⟨h1, h2, fieldOf_holds _ _, h4, h5, h6, h7, h8, h9, h10, h11, h12, h13, h14, h15, h16, h17⟩
  | sclkBurstPolicy =>
    exact ⟨h1, h2, h3, h4, fieldOf_holds _ _, h6, h7, h8, h9, h10, h11, h12, h13, h14, h15, h16, h17⟩
  | sclkDivider =>
    exact ⟨h1, h2, h3, h4, h5, dividerOfWord_fits _ _, h7, h8, h9, h10, h11, h12, h13, h14, h15, h16, h17⟩
  | cclkBurstPolicy =>
    exact ⟨h1, h2, h3, h4, h5, h6, fieldOf_holds _ _, h8, h9, h10, h11, h12, h13, h14, h15, h16, h17⟩
  | cclkDivider =>
    exact ⟨h1, h2, h3, h4, h5, h6, h7, dividerOfWord_fits _ _, h9, h10, h11, h12, h13, h14, h15, h16, h17⟩
  | rstCmplxSet c =>
    refine ⟨h1, h2, h3, h4, h5, h6, h7, h8, fun c' => ?_, h10, h11, h12, h13, h14, h15, h16, h17⟩
    simp only [storesOf, storedRstSet, PerCluster.get_set]
    split
    · rename_i e
      subst e
      refine Lines.fit_iff.2 fun k => ?_
      simp only [Lines.core_or, namedLines, Lines.core_and]
      exact FieldPlace.or_holds (Lines.fit_iff.1 (h9 _) k)
        (FieldPlace.and_holds _ (Lines.fit_iff.1 (linesOfWord_fit _ _) k))
    · exact h9 c'
  | rstCmplxClr c =>
    refine ⟨h1, h2, h3, h4, h5, h6, h7, h8, fun c' => ?_, h10, h11, h12, h13, h14, h15, h16, h17⟩
    simp only [storesOf, storedRstClr, PerCluster.get_set]
    split
    · rename_i e
      subst e
      refine Lines.fit_iff.2 fun k => ?_
      simp only [Lines.core_without]
      exact FieldPlace.and_holds _ (Lines.fit_iff.1 (h9 _) k)
    · exact h9 c'
  | pllBase p =>
    refine ⟨h1, h2, h3, h4, h5, h6, h7, h8, h9, fun q => ?_, h11, h12, h13, h14, h15, h16, h17⟩
    simp only [storesOf, storedPllBase, PerPll.get_set]
    split
    · simp [PllBase.fits, pllBaseOfWord, fieldOf_holds]
    · exact h10 q
  | pllMisc p =>
    refine ⟨h1, h2, h3, h4, h5, h6, h7, h8, h9, h10, fun q => ?_, h12, h13, h14, h15, h16, h17⟩
    simp only [storesOf, PerPll.get_set]
    split
    · exact fieldOf_holds _ _
    · exact h11 q
  | pllOutA p | pllOutB p =>
    refine ⟨h1, h2, h3, h4, h5, h6, h7, h8, h9, h10, h11, fun q => ?_, h13, h14, h15, h16, h17⟩
    simp only [storesOf, storedTaps, PerPll.get_set]
    split
    · rename_i e
      subst e
      exact storeTaps_fit _ _ (h12 _)
    · exact h12 q
  | pwrgateToggle =>
    exact ⟨h1, h2, h3, h4, h5, h6, h7, h8, h9, h10, h11, h12, fieldOf_holds _ _, h14, h15, h16, h17⟩
  | timerusUsecCfg =>
    exact ⟨h1, h2, h3, h4, h5, h6, h7, h8, h9, h10, h11, h12, h13, h14, fieldOf_holds _ _, fieldOf_holds _ _, h17⟩
  | tmrPtv =>
    have h14' : ∀ d, s.cfg.map.place.ptv.holds (ptvOfWord s.cfg.map d) = true := fieldOf_holds _
    simp only [storesOf, storedTimer]
    split <;> exact ⟨h1, h2, h3, h4, h5, h6, h7, h8, h9, h10, h11, h12, h13, h14' d, h15, h16, h17⟩
  | ramRepair =>
    simp only [storesOf, storedRepair]
    repeat' split
    all_goals exact ⟨h1, h2, h3, h4, h5, h6, h7, h8, h9, h10, h11, h12, h13, h14, h15, h16, h17⟩
  | _ => exact ⟨h1, h2, h3, h4, h5, h6, h7, h8, h9, h10, h11, h12, h13, h14, h15, h16, h17⟩
end Sys2Proof.Machine
end

