-- ==== Sys2Proof/Laws/PerInstr.lean ====
section
/-! SUPPORT. Facts about every command, constructor by constructor: a command is the one its parts name (rule R108,
step 4). -/

namespace Sys2Proof.Laws.Parts

/-- The command is given back by its `W` bit, its register and its `DATA`. -/
def Statement (i : Instr) : Prop := Instr.ofParts i.isWrite i.reg i.data = i

theorem rdOscCtrl : Statement .rdOscCtrl := rfl
theorem wrOscCtrl (data : Word) : Statement (.wrOscCtrl data) := rfl
theorem rdOscFreqDet : Statement .rdOscFreqDet := rfl
theorem wrOscFreqDet (data : Word) : Statement (.wrOscFreqDet data) := rfl
theorem rdOscFreqDetStatus : Statement .rdOscFreqDetStatus := rfl
theorem wrOscFreqDetStatus (data : Word) : Statement (.wrOscFreqDetStatus data) := rfl
theorem rdSclkBurstPolicy : Statement .rdSclkBurstPolicy := rfl
theorem wrSclkBurstPolicy (data : Word) : Statement (.wrSclkBurstPolicy data) := rfl
theorem rdSclkDivider : Statement .rdSclkDivider := rfl
theorem wrSclkDivider (data : Word) : Statement (.wrSclkDivider data) := rfl
theorem rdCclkBurstPolicy : Statement .rdCclkBurstPolicy := rfl
theorem wrCclkBurstPolicy (data : Word) : Statement (.wrCclkBurstPolicy data) := rfl
theorem rdCclkDivider : Statement .rdCclkDivider := rfl
theorem wrCclkDivider (data : Word) : Statement (.wrCclkDivider data) := rfl
theorem rdClkEnb : Statement .rdClkEnb := rfl
theorem wrClkEnb (data : Word) : Statement (.wrClkEnb data) := rfl
theorem rdRstDevSet : Statement .rdRstDevSet := rfl
theorem wrRstDevSet (data : Word) : Statement (.wrRstDevSet data) := rfl
theorem rdRstDevClr : Statement .rdRstDevClr := rfl
theorem wrRstDevClr (data : Word) : Statement (.wrRstDevClr data) := rfl
theorem rdRstCmplxSetP : Statement .rdRstCmplxSetP := rfl
theorem wrRstCmplxSetP (data : Word) : Statement (.wrRstCmplxSetP data) := rfl
theorem rdRstCmplxClrP : Statement .rdRstCmplxClrP := rfl
theorem wrRstCmplxClrP (data : Word) : Statement (.wrRstCmplxClrP data) := rfl
theorem rdRstCmplxStatusP : Statement .rdRstCmplxStatusP := rfl
theorem wrRstCmplxStatusP (data : Word) : Statement (.wrRstCmplxStatusP data) := rfl
theorem rdCpuSoftrstCtrlP : Statement .rdCpuSoftrstCtrlP := rfl
theorem wrCpuSoftrstCtrlP (data : Word) : Statement (.wrCpuSoftrstCtrlP data) := rfl
theorem rdRstCmplxSetE : Statement .rdRstCmplxSetE := rfl
theorem wrRstCmplxSetE (data : Word) : Statement (.wrRstCmplxSetE data) := rfl
theorem rdRstCmplxClrE : Statement .rdRstCmplxClrE := rfl
theorem wrRstCmplxClrE (data : Word) : Statement (.wrRstCmplxClrE data) := rfl
theorem rdRstCmplxStatusE : Statement .rdRstCmplxStatusE := rfl
theorem wrRstCmplxStatusE (data : Word) : Statement (.wrRstCmplxStatusE data) := rfl
theorem rdCpuSoftrstCtrlE : Statement .rdCpuSoftrstCtrlE := rfl
theorem wrCpuSoftrstCtrlE (data : Word) : Statement (.wrCpuSoftrstCtrlE data) := rfl
theorem rdPllBaseSys : Statement .rdPllBaseSys := rfl
theorem wrPllBaseSys (data : Word) : Statement (.wrPllBaseSys data) := rfl
theorem rdPllMiscSys : Statement .rdPllMiscSys := rfl
theorem wrPllMiscSys (data : Word) : Statement (.wrPllMiscSys data) := rfl
theorem rdPllOutaSys : Statement .rdPllOutaSys := rfl
theorem wrPllOutaSys (data : Word) : Statement (.wrPllOutaSys data) := rfl
theorem rdPllOutbSys : Statement .rdPllOutbSys := rfl
theorem wrPllOutbSys (data : Word) : Statement (.wrPllOutbSys data) := rfl
theorem rdPllBaseCpu : Statement .rdPllBaseCpu := rfl
theorem wrPllBaseCpu (data : Word) : Statement (.wrPllBaseCpu data) := rfl
theorem rdPllMiscCpu : Statement .rdPllMiscCpu := rfl
theorem wrPllMiscCpu (data : Word) : Statement (.wrPllMiscCpu data) := rfl
theorem rdPllOutaCpu : Statement .rdPllOutaCpu := rfl
theorem wrPllOutaCpu (data : Word) : Statement (.wrPllOutaCpu data) := rfl
theorem rdPllOutbCpu : Statement .rdPllOutbCpu := rfl
theorem wrPllOutbCpu (data : Word) : Statement (.wrPllOutbCpu data) := rfl
theorem rdPllBaseUsb : Statement .rdPllBaseUsb := rfl
theorem wrPllBaseUsb (data : Word) : Statement (.wrPllBaseUsb data) := rfl
theorem rdPllMiscUsb : Statement .rdPllMiscUsb := rfl
theorem wrPllMiscUsb (data : Word) : Statement (.wrPllMiscUsb data) := rfl
theorem rdPllOutaUsb : Statement .rdPllOutaUsb := rfl
theorem wrPllOutaUsb (data : Word) : Statement (.wrPllOutaUsb data) := rfl
theorem rdPllOutbUsb : Statement .rdPllOutbUsb := rfl
theorem wrPllOutbUsb (data : Word) : Statement (.wrPllOutbUsb data) := rfl
theorem rdResetVector : Statement .rdResetVector := rfl
theorem wrResetVector (data : Word) : Statement (.wrResetVector data) := rfl
theorem rdPwrgateToggle : Statement .rdPwrgateToggle := rfl
theorem wrPwrgateToggle (data : Word) : Statement (.wrPwrgateToggle data) := rfl
theorem rdPwrgateStatus : Statement .rdPwrgateStatus := rfl
theorem wrPwrgateStatus (data : Word) : Statement (.wrPwrgateStatus data) := rfl
theorem rdRemoveClampingCmd : Statement .rdRemoveClampingCmd := rfl
theorem wrRemoveClampingCmd (data : Word) : Statement (.wrRemoveClampingCmd data) := rfl
theorem rdClusterControl : Statement .rdClusterControl := rfl
theorem wrClusterControl (data : Word) : Statement (.wrClusterControl data) := rfl
theorem rdRamRepair : Statement .rdRamRepair := rfl
theorem wrRamRepair (data : Word) : Statement (.wrRamRepair data) := rfl
theorem rdBondOut : Statement .rdBondOut := rfl
theorem wrBondOut (data : Word) : Statement (.wrBondOut data) := rfl
theorem rdCpuDisable : Statement .rdCpuDisable := rfl
theorem wrCpuDisable (data : Word) : Statement (.wrCpuDisable data) := rfl
theorem rdTmrPtv : Statement .rdTmrPtv := rfl
theorem wrTmrPtv (data : Word) : Statement (.wrTmrPtv data) := rfl
theorem rdTmrSts : Statement .rdTmrSts := rfl
theorem wrTmrSts (data : Word) : Statement (.wrTmrSts data) := rfl
theorem rdTimerusUsecCfg : Statement .rdTimerusUsecCfg := rfl
theorem wrTimerusUsecCfg (data : Word) : Statement (.wrTimerusUsecCfg data) := rfl
theorem rdSigVersion : Statement .rdSigVersion := rfl
theorem wrSigVersion (data : Word) : Statement (.wrSigVersion data) := rfl
theorem rdSigDataVersion : Statement .rdSigDataVersion := rfl
theorem wrSigDataVersion (data : Word) : Statement (.wrSigDataVersion data) := rfl
theorem rdOscFreq : Statement .rdOscFreq := rfl
theorem wrOscFreq (data : Word) : Statement (.wrOscFreq data) := rfl
theorem rdBootType : Statement .rdBootType := rfl
theorem wrBootType (data : Word) : Statement (.wrBootType data) := rfl
theorem rdFlags : Statement .rdFlags := rfl
theorem wrFlags (data : Word) : Statement (.wrFlags data) := rfl

end Sys2Proof.Laws.Parts
end

