-- ==== Sys2Proof/Laws/Writes.lean ====
section
/-! SUPPORT. What no write touches, and what a command that completes leaves: every command is a read or a write of its
register. -/

namespace Sys2Proof.Machine

open Sys2Proof

/-! No write touches these. -/

@[simp] theorem storesOf_cfg (d : Word) (s : State) (r : Reg) : (storesOf d s r).cfg = s.cfg := by
  cases r <;> first | rfl | (simp only [storesOf, storedRepair, storedTimer]; split <;> first | rfl | (split <;> rfl))

@[simp] theorem storesOf_entry (d : Word) (s : State) (r : Reg) : (storesOf d s r).entry = s.entry := by
  cases r <;> first | rfl | (simp only [storesOf, storedRepair, storedTimer]; split <;> first | rfl | (split <;> rfl))

@[simp] theorem storesOf_fault (d : Word) (s : State) (r : Reg) : (storesOf d s r).fault = s.fault := by
  cases r <;> first | rfl | (simp only [storesOf, storedRepair, storedTimer]; split <;> first | rfl | (split <;> rfl))

@[simp] theorem storesOf_refused (d : Word) (s : State) (r : Reg) : (storesOf d s r).refused = s.refused := by
  cases r <;> first | rfl | (simp only [storesOf, storedRepair, storedTimer]; split <;> first | rfl | (split <;> rfl))

@[simp] theorem storesOf_history (d : Word) (s : State) (r : Reg) : (storesOf d s r).history = s.history := by
  cases r <;> first | rfl | (simp only [storesOf, storedRepair, storedTimer]; split <;> first | rfl | (split <;> rfl))

@[simp] theorem storesOf_master (d : Word) (s : State) (r : Reg) : (storesOf d s r).master = s.master := by
  cases r <;> first | rfl | (simp only [storesOf, storedRepair, storedTimer]; split <;> first | rfl | (split <;> rfl))

@[simp] theorem storesOf_sched (d : Word) (s : State) (r : Reg) : (storesOf d s r).sched = s.sched := by
  cases r <;> first | rfl | (simp only [storesOf, storedRepair, storedTimer]; split <;> first | rfl | (split <;> rfl))

@[simp] theorem storesOf_drawn (d : Word) (s : State) (r : Reg) : (storesOf d s r).drawn = s.drawn := by
  cases r <;> first | rfl | (simp only [storesOf, storedRepair, storedTimer]; split <;> first | rfl | (split <;> rfl))

@[simp] theorem storesOf_detCount (d : Word) (s : State) (r : Reg) : (storesOf d s r).detCount = s.detCount := by
  cases r <;> first | rfl | (simp only [storesOf, storedRepair, storedTimer]; split <;> first | rfl | (split <;> rfl))

@[simp] theorem storesOf_pwrStatus (d : Word) (s : State) (r : Reg) : (storesOf d s r).pwrStatus = s.pwrStatus := by
  cases r <;> first | rfl | (simp only [storesOf, storedRepair, storedTimer]; split <;> first | rfl | (split <;> rfl))

@[simp] theorem storesOf_perfBondedOut (d : Word) (s : State) (r : Reg) :
    (storesOf d s r).perfBondedOut = s.perfBondedOut := by
  cases r <;> first | rfl | (simp only [storesOf, storedRepair, storedTimer]; split <;> first | rfl | (split <;> rfl))

@[simp] theorem storesOf_effBondedOut (d : Word) (s : State) (r : Reg) :
    (storesOf d s r).effBondedOut = s.effBondedOut := by
  cases r <;> first | rfl | (simp only [storesOf, storedRepair, storedTimer]; split <;> first | rfl | (split <;> rfl))

@[simp] theorem storesOf_cpuDisable (d : Word) (s : State) (r : Reg) : (storesOf d s r).cpuDisable = s.cpuDisable := by
  cases r <;> first | rfl | (simp only [storesOf, storedRepair, storedTimer]; split <;> first | rfl | (split <;> rfl))

@[simp] theorem storesOf_bir (d : Word) (s : State) (r : Reg) : (storesOf d s r).bir = s.bir := by
  cases r <;> first | rfl | (simp only [storesOf, storedRepair, storedTimer]; split <;> first | rfl | (split <;> rfl))

@[simp] theorem storesOf_oscActual (d : Word) (s : State) (r : Reg) : (storesOf d s r).oscActual = s.oscActual := by
  cases r <;> first | rfl | (simp only [storesOf, storedRepair, storedTimer]; split <;> first | rfl | (split <;> rfl))

@[simp] theorem storesOf_clamp (d : Word) (s : State) (r : Reg) : (storesOf d s r).clamp = s.clamp := by
  cases r <;> first | rfl | (simp only [storesOf, storedRepair, storedTimer]; split <;> first | rfl | (split <;> rfl))

/-! What a hazard leaves stored touches no bookkeeping. -/

@[simp] theorem storedAtFault_cfg (k : Fault) (r : Reg) (d : Word) (s : State) :
    (storedAtFault k r d s).cfg = s.cfg := by
  cases k <;> simp [storedAtFault, storedTapsBelow, storedTaps, storedClampsBelow]

@[simp] theorem storedAtFault_fault (k : Fault) (r : Reg) (d : Word) (s : State) :
    (storedAtFault k r d s).fault = s.fault := by
  cases k <;> simp [storedAtFault, storedTapsBelow, storedTaps, storedClampsBelow]

@[simp] theorem storedAtFault_refused (k : Fault) (r : Reg) (d : Word) (s : State) :
    (storedAtFault k r d s).refused = s.refused := by
  cases k <;> simp [storedAtFault, storedTapsBelow, storedTaps, storedClampsBelow]

@[simp] theorem storedAtFault_history (k : Fault) (r : Reg) (d : Word) (s : State) :
    (storedAtFault k r d s).history = s.history := by
  cases k <;> simp [storedAtFault, storedTapsBelow, storedTaps, storedClampsBelow]

@[simp] theorem storedAtFault_master (k : Fault) (r : Reg) (d : Word) (s : State) :
    (storedAtFault k r d s).master = s.master := by
  cases k <;> simp [storedAtFault, storedTapsBelow, storedTaps, storedClampsBelow]

/-! A completed write, field by field. -/

@[simp] theorem stored_toHwState (s : State) (r : Reg) (d : Word) :
    (s.stored r d).toHwState = (storesOf d s r).toHwState := rfl

@[simp] theorem stored_cfg (s : State) (r : Reg) (d : Word) : (s.stored r d).cfg = s.cfg := by
  simp [State.stored]

@[simp] theorem stored_entry (s : State) (r : Reg) (d : Word) : (s.stored r d).entry = s.entry := by
  simp [State.stored]

@[simp] theorem stored_fault (s : State) (r : Reg) (d : Word) : (s.stored r d).fault = s.fault := by
  simp [State.stored]

@[simp] theorem stored_refused (s : State) (r : Reg) (d : Word) : (s.stored r d).refused = s.refused := by
  simp [State.stored]

@[simp] theorem stored_history (s : State) (r : Reg) (d : Word) :
    (s.stored r d).history = s.history ++ [.wr r (r.addr s.cfg) d] := by
  simp [State.stored]

@[simp] theorem stored_master (s : State) (r : Reg) (d : Word) : (s.stored r d).master = s.master := by
  simp [State.stored]

@[simp] theorem stored_sched (s : State) (r : Reg) (d : Word) : (s.stored r d).sched = s.sched := by
  simp [State.stored]

@[simp] theorem stored_drawn (s : State) (r : Reg) (d : Word) : (s.stored r d).drawn = s.drawn := by
  simp [State.stored]

/-- A write that completes passes the clock check and leaves its stores made and recorded. -/
theorem exec_wr_next {r : Reg} {d : Word} {s t : State} (e : exec (.wr d r) s = .next t) :
    r.present s.cfg = true ∧ clockFault (storesOf d s r) = none ∧ t = s.stored r d := by
  cases r with
  | clkEnb => exact ⟨rfl, (execWrClkEnb_next.1 e).2⟩
  | rstDevClr => exact ⟨rfl, (execWrRstDevClr_next.1 e).2⟩
  | rstCmplxSet c => cases c <;> exact writeReg_next.1 e
  | rstCmplxStatus c => cases c <;> exact writeReg_next.1 e
  | cpuSoftrstCtrl c => cases c <;> exact writeReg_next.1 e
  | rstCmplxClr c =>
    have e' : writeRstCmplxClr c d s = .next t := by cases c <;> exact e
    obtain ⟨h, -, -, h'⟩ := writeRstCmplxClr_next.1 e'
    exact ⟨h, h'⟩
  | pllMisc q => cases q <;> exact writeReg_next.1 e
  | pllBase q =>
    have e' : writePllBase q d s = .next t := by cases q <;> exact e
    obtain ⟨h, -, h'⟩ := writePllBase_next.1 e'
    exact ⟨h, h'⟩
  | pllOutA q =>
    have e' : writeTaps (.pllOutA q) q d s = .next t := by cases q <;> exact e
    obtain ⟨h, -, h'⟩ := writeTaps_next.1 e'
    exact ⟨h, h'⟩
  | pllOutB q =>
    have e' : writeTaps (.pllOutB q) q d s = .next t := by cases q <;> exact e
    obtain ⟨h, -, h'⟩ := writeTaps_next.1 e'
    exact ⟨h, h'⟩
  | pwrgateToggle =>
    obtain ⟨hc, h, -⟩ := execWrPwrgateToggle_next.1 (show execWrPwrgateToggle d s = .next t from e)
    exact ⟨rfl, hc, h⟩
  | removeClampingCmd =>
    obtain ⟨-, hc, h⟩ := execWrRemoveClampingCmd_next.1 (show execWrRemoveClampingCmd d s = .next t from e)
    exact ⟨rfl, hc, h⟩
  | clusterControl =>
    obtain ⟨-, hc, h⟩ := execWrClusterControl_next.1 (show execWrClusterControl d s = .next t from e)
    exact ⟨rfl, hc, h⟩
  | tmrPtv =>
    obtain ⟨-, hc, h⟩ := execWrTmrPtv_next.1 (show execWrTmrPtv d s = .next t from e)
    refine ⟨rfl, ?_, h⟩
    simp only [storesOf, storedTimer]
    split <;> exact hc
  | sigVersion => cases e
  | sigDataVersion => cases e
  | birOscFreq => cases e
  | bootType => cases e
  | flags => cases e
  | _ => exact writeReg_next.1 e

/-- A read that completes changes `history` and the master's `v` only. -/
theorem exec_rd_next {r : Reg} {s t : State} (e : exec (.rd r) s = .next t) :
    r.present s.cfg = true ∧ ∃ v, t = s.gotRead r v := by
  obtain ⟨v, hv⟩ := exec_rd r s
  rw [hv, readReg_next] at e
  exact ⟨e.1, v, e.2⟩

/-- The parts of a register's write. -/
theorem wr_parts (r : Reg) (d : Word) :
    (Instr.wr d r).isWrite = true ∧ (Instr.wr d r).reg = r ∧ (Instr.wr d r).data = d := by
  cases r <;> first | exact ⟨rfl, rfl, rfl⟩ | (rename_i x; cases x <;> exact ⟨rfl, rfl, rfl⟩)

/-- The parts of a register's read. -/
theorem rd_parts (r : Reg) : (Instr.rd r).isWrite = false ∧ (Instr.rd r).reg = r ∧ (Instr.rd r).data = 0 := by
  cases r <;> first | exact ⟨rfl, rfl, rfl⟩ | (rename_i x; cases x <;> exact ⟨rfl, rfl, rfl⟩)

/-- Every command is the read or the write of its register. -/
theorem instr_cases (i : Instr) : i = .rd i.reg ∨ ∃ d, i = .wr d i.reg := by
  have h : Instr.ofParts i.isWrite i.reg i.data = i := by
    cases i <;> rfl
  unfold Instr.ofParts at h
  split at h
  · exact .inr ⟨_, h.symm⟩
  · exact .inl h.symm

/-- What a command that completes leaves: a read, or a write with its stores made. -/
theorem exec_next {i : Instr} {s t : State} (e : exec i s = .next t) :
    (∃ v, t = s.gotRead i.reg v) ∨
      (∃ d, clockFault (storesOf d s i.reg) = none ∧ t = s.stored i.reg d) := by
  obtain h | ⟨d, h⟩ := instr_cases i
  · rw [h] at e
    exact .inl (exec_rd_next e).2
  · rw [h] at e
    exact .inr ⟨d, (exec_wr_next e).2⟩

end Sys2Proof.Machine
end

