-- ==== Sys2Proof/Laws/Step.lean ====
section
/-! SUPPORT. Everything one step can do, said once: nothing but bookkeeping, one event that is no write, one write, or
one agent's effect. -/

namespace Sys2Proof.Machine

open Sys2Proof

/-- The ways a step leads from `s` to `t`. -/
inductive StepEffect (s t : State) : Prop where
  /-- Only the schedule and the master change. -/
  | idle (l : List Move) (m : Master) (h : t = { s with sched := l, master := m })
  /-- A read or a post: one event is recorded as well. -/
  | event (l : List Move) (m : Master) (e : Event) (he : ∀ r a d, e ≠ .wr r a d)
      (h : t = { s with sched := l, master := m, history := s.history ++ [e] })
  /-- A write that completes. -/
  | write (u w : State) (d : Word) (r : Reg) (l : List Move) (m m' : Master)
      (hu : u = { s with sched := l, master := m }) (e : exec (.wr d r) u = .next w) (h : t = { w with master := m' })
  /-- An agent's enabled step. -/
  | agent (u : State) (x : Draw) (a : HwAgent) (l : List Move) (hu : u = { s with sched := l })
      (hp : agentPresent s.cfg a = true) (he : agentEnabled u a = true)
      (hc : clockFault (agentEffect x a u) = none) (h : t = (agentEffect x a u).log (.agent a))

theorem exec_effect {s u w t : State} {i : Instr} {l : List Move} {m m' : Master}
    (hu : u = { s with sched := l, master := m }) (e : exec i u = .next w) (h : t = { w with master := m' }) :
    StepEffect s t := by
  obtain hi | ⟨d, hi⟩ := instr_cases i
  · rw [hi] at e
    obtain ⟨-, v, hv⟩ := exec_rd_next e
    refine .event l m' (.rd i.reg (i.reg.addr s.cfg) v) (by simp) ?_
    rw [h, hv, hu]
    rfl
  · rw [hi] at e
    exact .write u w d i.reg l m m' hu e h

theorem busCommand_effect {s u w t : State} {f : Except DecodeError Instr} {l : List Move} {m m' : Master}
    (hu : u = { s with sched := l, master := m }) (e : busCommand f u = .next w) (h : t = { w with master := m' }) :
    StepEffect s t := by
  unfold busCommand refuse at e
  split at e
  · exact exec_effect hu e h
  · simp at e

theorem issue_effect {s u w t : State} {c : Cmd} {l : List Move} {m m' : Master}
    (hu : u = { s with sched := l, master := m }) (e : issue c u = .next w) (h : t = { w with master := m' }) :
    StepEffect s t := by
  cases c <;> simp only [issue] at e
  · exact busCommand_effect hu e h
  · unfold busAccess refuse at e
    split at e
    · simp at e
    · exact busCommand_effect hu e h
  · exact exec_effect hu e h
  · exact exec_effect hu e h
  · rw [onNext_next] at e
    obtain ⟨u', hu', rfl⟩ := e
    refine exec_effect (m' := m') hu hu' ?_
    rw [h]
    unfold retryPoll
    split <;> rfl
  · simp only [Host.Outcome.next.injEq] at e
    subst e hu h
    exact .event l m' _ (by simp) rfl
  · simp [refuse] at e

theorem masterStep_effect {s t : State} {l : List Move} {m : Master}
    (e : masterStep { s with sched := l, master := m } = .next t) : StepEffect s t := by
  unfold masterStep at e
  rw [issueNext_next] at e
  obtain ⟨c, rest, u, -, hu, rfl⟩ | ⟨-, rfl⟩ := e
  · exact issue_effect (w := u) rfl hu rfl
  · exact .idle l _ rfl

/-- What a step that leads on has done; the run had not ended. -/
theorem step_effect {s t : State} (e : step s = .next t) :
    s.fault = none ∧ s.refused = false ∧ StepEffect s t := by
  rw [step_next, scheduledStep_next] at e
  obtain ⟨h1, h2, ⟨-, e⟩ | ⟨r, -, e⟩ | ⟨a, r, -, e⟩⟩ := e
  · exact ⟨h1, h2, masterStep_effect (l := s.sched) (m := s.master) e⟩
  · exact ⟨h1, h2, masterStep_effect (l := r) (m := s.master) e⟩
  · refine ⟨h1, h2, ?_⟩
    unfold agentStep at e
    rw [agentStepWith_next] at e
    obtain ⟨h0, h1, h2, rfl⟩ | ⟨-, rfl⟩ := e
    · exact .agent _ _ a r rfl h0 h1 h2 rfl
    · exact .idle r s.master rfl

/-- A statement list whose head is a command is settled. -/
theorem settle_of_cmd {s : State} {c : Cmd} {rest : List Op} (h : s.master.prog = .cmd c :: rest) : s.settle = s := by
  unfold State.settle
  rw [h]
  simp only [settleOps]
  rw [← h]

/-- The write a settled list begins with is the master's next write. -/
theorem nextWrite_of_wr {s : State} {r : Reg} {e : Expr} {rest : List Op}
    (h : s.master.prog = .cmd (.wr r e) :: rest) :
    nextWrite s = some (r, exprValue s.cfg (s.load rest).master e, rest) := by
  obtain ⟨h1, h2, h3⟩ := wr_parts r (exprValue s.cfg (s.load rest).master e)
  unfold nextWrite
  rw [settle_of_cmd h, h]
  show (if (Instr.wr (exprValue s.cfg (s.load rest).master e) r).isWrite then _ else _) = _
  rw [h1, if_pos rfl]
  exact congrArg some (Prod.ext h2 (Prod.ext h3 rfl))

/-- An agent's step raises nothing but the clock check's hazard, with its effect done. -/
theorem agentStepWith_fault {x : Draw} {a : HwAgent} {s : State} {k : Fault} (h : agentStepWith x a s = .fault k) :
    agentPresent s.cfg a = true ∧ agentEnabled s a = true ∧ clockFault (agentEffect x a s) = some k := by
  unfold agentStepWith agentDone at h
  split at h
  · rename_i h0
    rw [Bool.and_eq_true] at h0
    exact ⟨h0.1, h0.2, (clockFault_log _ _).symm.trans (commit_fault.1 h)⟩
  · cases h

@[simp] theorem agentEffect_fault (x : Draw) (a : HwAgent) (s : State) : (agentEffect x a s).fault = s.fault := by
  cases a <;> first | rfl | (simp only [agentEffect, completeToggle]; split <;> first | rfl | (split <;> rfl))

/-- What a step leaves when it raises a hazard carries no mark that was not there. -/
@[simp] theorem moveLeft_fault (m : Move) (s : State) (k : Fault) : (moveLeft m s k).fault = s.fault := by
  cases m with
  | master =>
    simp only [moveLeft, masterLeft]
    split
    · rw [stored_fault]; rfl
    · exact storedAtFault_fault ..
    · rfl
  | agent a => exact agentEffect_fault ..

/-- Conditions and assignments do not look at the statements still to run. -/
theorem condHolds_prog (cfg : Config) (m : Master) (p : List Op) (c : Cond) :
    condHolds cfg { m with prog := p } c = condHolds cfg m c := by
  induction c with
  | neg c ih => simp [condHolds, ih]
  | _ => rfl

/-- Where settling ends does not depend on the list the master held before. -/
theorem settleOps_prog (cfg : Config) (k : Nat) (ops : List Op) (m : Master) (p : List Op) :
    settleOps cfg k ops { m with prog := p } = settleOps cfg k ops m := by
  induction ops generalizing k m p with
  | nil => cases k <;> rfl
  | cons o rest ih =>
    cases k with
    | succ k => exact ih k m p
    | zero =>
      cases o with
      | cmd c => rfl
      | ctl x =>
        cases x with
        | skipIf c n => simp only [settleOps, condHolds_prog, ih]
        | assign a =>
          have h : runAssign cfg { m with prog := p } a = { runAssign cfg m a with prog := p } := by cases a <;> rfl
          simp only [settleOps, h, ih]
        | assert c ch => simp only [settleOps, condHolds_prog, ih]
        | advance => exact ih 0 m.advance p

end Sys2Proof.Machine
end

