-- ==== Sys2Proof/Tests/Slice0.lean ====
section
/-! SUPPORT. Tests: the smoke tests of every well-formedness check; one written-out word for every command, with its
address from rules R102 and R103; one-step tests whose expected values are those of `spec/95_test_vectors.md`; and for
every obligation with hypotheses a theorem that meets them. -/

namespace Sys2Proof.Tests

open Sys2Proof Sys2Proof.Machine

/-! ### Well-formedness: each check refuses an ill-formed configuration or command -/

theorem test_default_wf : Config.default.wf = true := by decide

theorem test_one_pll_refused : Config.pllCountOk { Config.default with npll := 1 } = false := by decide

/-- A tap without a place, without a selector code, and one ratio too few. -/
theorem test_tap_counts_refused :
    let five : PerPll Nat := { sys := 5, cpu := 0, usb := 0 }
    let ratios : PerPll (List Word) := { sys := [4, 4, 2, 2, 2], cpu := [], usb := [] }
    Config.tapCountOk { Config.default with ntaps := five, tapRatio := ratios } = false ∧
      Config.tapCountOk
        { Config.default with
          map := { RegMap.spec with sysCode := { RegMap.spec.sysCode with tap := [2, 3, 4] } } } = false ∧
      Config.tapCountOk { Config.default with tapRatio := { ratios with sys := [4, 4, 2] } } = false := by
  decide

/-- A release mask that leaves core 0 in reset (conflict C3), an assert and a secondary mask that hold no core. -/
theorem test_reset_masks_refused :
    let most : PerKind Bool := .ofFn fun k => k != .cpu
    Config.masksOk { Config.default with masks := { ResetMasks.spec with release := .ofFn fun k => k == .cpu } } =
        false ∧
      Config.masksOk { Config.default with masks := { ResetMasks.spec with assert := most } } = false ∧
      Config.masksOk { Config.default with masks := { ResetMasks.spec with secondary := most } } = false := by
  decide

theorem test_no_core_refused : Config.coreCountOk { Config.default with ncores := { p := 4, e := 0 } } = false := by
  decide

theorem test_five_cores_refused :
    Config.coreCountOk { Config.default with ncores := { p := 5, e := 1 } } = false := by
  decide

theorem test_value_without_room_refused :
    Config.valuesFit { Config.default with fdWin := 16 } = false ∧
      Config.valuesFit { Config.default with sysBootSrc := 16 } = false ∧
      Config.valuesFit { Config.default with oscSet := [{ osc12MHz with freq := freqRow 1 256 }] } = false ∧
      Config.valuesFit
        { Config.default with oscSet := [{ osc12MHz with pll := { osc12MHz.pll with sys := pllRow 12 1024 1 } }] } =
        false := by
  decide

theorem test_timer_span_refused :
    Config.timerOk { Config.default with tmrMax := 1 } = false ∧
      Config.timerOk { Config.default with tmrMax := 2 ^ 29 } = false := by
  decide

theorem test_long_settle_refused : Config.boundsOk { Config.default with tmrMax := 300 } = false := by decide

theorem test_overlapping_bases_refused :
    Config.basesOk { Config.default with base := { Config.default.base with flow := 0x00010FFC } } = false := by
  decide

theorem test_misaligned_base_refused :
    Config.basesOk { Config.default with base := { Config.default.base with bir := 0x00080002 } } = false := by
  decide

theorem test_overlapping_ranges_refused :
    Config.rangesOk { Config.default with oscSet := { osc12MHz with range := countRow 796 } :: oscSetSpec.tail } =
      false := by
  decide

theorem test_no_outside_count_refused :
    Config.outsideOk { Config.default with oscSet := [{ osc12MHz with range := { lo := 0, hi := 0xFFFF } }] } =
      false := by
  decide

/-- Two crystals of one frequency, two with one code, a code of five bits, a row with the "unknown" code, and an
`OSC_DEFAULT` that is no row. -/
theorem test_ambiguous_oscillators_refused :
    Config.oscSetOk { Config.default with oscSet := [osc12MHz, { osc12MHz with code := 1 }] } = false ∧
      Config.oscSetOk { Config.default with oscSet := [osc12MHz, { osc12MHz with kHz := 13000 }] } = false ∧
      Config.oscSetOk { Config.default with oscSet := [osc12MHz, { osc12MHz with kHz := 13000, code := 16 }] } =
        false ∧
      Config.oscSetOk { Config.default with map := { RegMap.spec with oscUnknown := 6 } } = false ∧
      Config.oscSetOk { Config.default with oscDefault := { osc12MHz with code := 9 } } = false := by
  decide

theorem test_shared_offset_refused :
    RegMap.offsetsOk { RegMap.spec with offset := { RegMap.spec.offset with clkEnb := 0x018 } } = false ∧
      RegMap.offsetsOk { RegMap.spec with offset := { RegMap.spec.offset with tmrSts := 0x006 } } = false ∧
      RegMap.offsetsOk { RegMap.spec with offset := { RegMap.spec.offset with resetVector := 0x1000 } } = false := by
  decide

theorem test_overlapping_fields_refused :
    RegMap.placesOk { RegMap.spec with place := { RegMap.spec.place with start := 4 } } = false ∧
      RegMap.placesOk { RegMap.spec with place := { RegMap.spec.place with tmrEn := 32 } } = false ∧
      RegMap.placesOk { RegMap.spec with place := { RegMap.spec.place with partId := ⟨0, 9⟩ } } = false ∧
      RegMap.placesOk { RegMap.spec with place := { RegMap.spec.place with ptv := ⟨0, 0⟩ } } = false ∧
      RegMap.placesOk { RegMap.spec with gate := { RegMap.spec.gate with dma1 := 4 } } = false := by
  decide

theorem test_ambiguous_codes_refused :
    RegMap.codesOk { RegMap.spec with oscUnknown := 16 } = false ∧
      RegMap.codesOk { RegMap.spec with place := { RegMap.spec.place with sysSrc := ⟨0, 2⟩ } } = false ∧
      RegMap.codesOk { RegMap.spec with cpuCode := { RegMap.spec.cpuCode with pllCpu := 1 } } = false ∧
      RegMap.codesOk { RegMap.spec with partId := { RegMap.spec.partId with cpuE := 32 } } = false := by
  decide

theorem test_absent_register_ill_formed :
    Instr.wf Config.default (.wrPllOutaCpu 0) = false ∧ Instr.wf Config.default .rdRamRepair = false ∧
      Instr.wf { Config.default with npll := 2 } .rdPllBaseUsb = false ∧
      Instr.wf { Config.default with dualCluster := false } .rdRstCmplxSetE = false := by
  decide

/-! ### Decoding: every row of the opcode table -/

theorem test_decode_support_reads_1 :
    decodeTableWord 65 0x00001000000000000 = some .rdOscCtrl ∧
      decodeTableWord 65 0x00001000400000000 = some .rdOscFreqDet ∧
      decodeTableWord 65 0x00001000800000000 = some .rdOscFreqDetStatus ∧
      decodeTableWord 65 0x0000100F000000000 = some .rdResetVector ∧
      decodeTableWord 65 0x00002000000000000 = some .rdClusterControl ∧
      decodeTableWord 65 0x00004000000000000 = some .rdBondOut ∧
      decodeTableWord 65 0x00004000400000000 = some .rdCpuDisable ∧
      decodeTableWord 65 0x00006000000000000 = some .rdTmrPtv ∧
      decodeTableWord 65 0x00006000400000000 = some .rdTmrSts ∧
      decodeTableWord 65 0x00006001000000000 = some .rdTimerusUsecCfg ∧
      decodeTableWord 65 0x00008000000000000 = some .rdSigVersion ∧
      decodeTableWord 65 0x00008000400000000 = some .rdSigDataVersion := by
  decide

theorem test_decode_support_reads_2 :
    decodeTableWord 65 0x00008000800000000 = some .rdOscFreq ∧
      decodeTableWord 65 0x00008000C00000000 = some .rdBootType ∧
      decodeTableWord 65 0x00008001000000000 = some .rdFlags := by
  decide

theorem test_decode_support_writes_1 :
    decodeTableWord 65 0x100010000A5C3F00F = some (.wrOscCtrl 0xA5C3F00F) ∧
      decodeTableWord 65 0x10001000480000001 = some (.wrOscFreqDet 0x80000001) ∧
      decodeTableWord 65 0x10001000801234567 = some (.wrOscFreqDetStatus 0x01234567) ∧
      decodeTableWord 65 0x1000100F05A5A1E2D = some (.wrResetVector 0x5A5A1E2D) ∧
      decodeTableWord 65 0x10002000001234567 = some (.wrClusterControl 0x01234567) ∧
      decodeTableWord 65 0x1000400008011B00C = some (.wrBondOut 0x8011B00C) ∧
      decodeTableWord 65 0x10004000400010111 = some (.wrCpuDisable 0x00010111) ∧
      decodeTableWord 65 0x1000600005A5A1E2D = some (.wrTmrPtv 0x5A5A1E2D) ∧
      decodeTableWord 65 0x1000600040000003E = some (.wrTmrSts 0x0000003E) ∧
      decodeTableWord 65 0x100060010A5C3F00F = some (.wrTimerusUsecCfg 0xA5C3F00F) ∧
      decodeTableWord 65 0x10008000080000001 = some (.wrSigVersion 0x80000001) ∧
      decodeTableWord 65 0x10008000401234567 = some (.wrSigDataVersion 0x01234567) := by
  decide

theorem test_decode_support_writes_2 :
    decodeTableWord 65 0x100080008FFFFFFFF = some (.wrOscFreq 0xFFFFFFFF) ∧
      decodeTableWord 65 0x10008000C8011B00C = some (.wrBootType 0x8011B00C) ∧
      decodeTableWord 65 0x10008001000010111 = some (.wrFlags 0x00010111) := by
  decide

theorem test_decode_clock_reads :
    decodeTableWord 65 0x00001001000000000 = some .rdSclkBurstPolicy ∧
      decodeTableWord 65 0x00001001400000000 = some .rdSclkDivider ∧
      decodeTableWord 65 0x00001001800000000 = some .rdCclkBurstPolicy ∧
      decodeTableWord 65 0x00001001C00000000 = some .rdCclkDivider ∧
      decodeTableWord 65 0x00001002000000000 = some .rdClkEnb := by
  decide

theorem test_decode_clock_writes :
    decodeTableWord 65 0x100010010FFFFFFFF = some (.wrSclkBurstPolicy 0xFFFFFFFF) ∧
      decodeTableWord 65 0x1000100148011B00C = some (.wrSclkDivider 0x8011B00C) ∧
      decodeTableWord 65 0x10001001800010111 = some (.wrCclkBurstPolicy 0x00010111) ∧
      decodeTableWord 65 0x10001001C5A5A1E2D = some (.wrCclkDivider 0x5A5A1E2D) ∧
      decodeTableWord 65 0x1000100200000003E = some (.wrClkEnb 0x0000003E) := by
  decide

theorem test_decode_reset_reads :
    decodeTableWord 65 0x00001003000000000 = some .rdRstDevSet ∧
      decodeTableWord 65 0x00001003400000000 = some .rdRstDevClr ∧
      decodeTableWord 65 0x00001004000000000 = some .rdRstCmplxSetP ∧
      decodeTableWord 65 0x00001004400000000 = some .rdRstCmplxClrP ∧
      decodeTableWord 65 0x00001004800000000 = some .rdRstCmplxStatusP ∧
      decodeTableWord 65 0x00001004C00000000 = some .rdCpuSoftrstCtrlP ∧
      decodeTableWord 65 0x00001005000000000 = some .rdRstCmplxSetE ∧
      decodeTableWord 65 0x00001005400000000 = some .rdRstCmplxClrE ∧
      decodeTableWord 65 0x00001005800000000 = some .rdRstCmplxStatusE ∧
      decodeTableWord 65 0x00001005C00000000 = some .rdCpuSoftrstCtrlE := by
  decide

theorem test_decode_reset_writes :
    decodeTableWord 65 0x100010030A5C3F00F = some (.wrRstDevSet 0xA5C3F00F) ∧
      decodeTableWord 65 0x10001003480000001 = some (.wrRstDevClr 0x80000001) ∧
      decodeTableWord 65 0x10001004001234567 = some (.wrRstCmplxSetP 0x01234567) ∧
      decodeTableWord 65 0x100010044FFFFFFFF = some (.wrRstCmplxClrP 0xFFFFFFFF) ∧
      decodeTableWord 65 0x1000100488011B00C = some (.wrRstCmplxStatusP 0x8011B00C) ∧
      decodeTableWord 65 0x10001004C00010111 = some (.wrCpuSoftrstCtrlP 0x00010111) ∧
      decodeTableWord 65 0x1000100505A5A1E2D = some (.wrRstCmplxSetE 0x5A5A1E2D) ∧
      decodeTableWord 65 0x1000100540000003E = some (.wrRstCmplxClrE 0x0000003E) ∧
      decodeTableWord 65 0x100010058A5C3F00F = some (.wrRstCmplxStatusE 0xA5C3F00F) ∧
      decodeTableWord 65 0x10001005C80000001 = some (.wrCpuSoftrstCtrlE 0x80000001) := by
  decide

theorem test_decode_pll_reads :
    decodeTableWord 65 0x00001008000000000 = some .rdPllBaseSys ∧
      decodeTableWord 65 0x00001008400000000 = some .rdPllMiscSys ∧
      decodeTableWord 65 0x00001008800000000 = some .rdPllOutaSys ∧
      decodeTableWord 65 0x00001008C00000000 = some .rdPllOutbSys ∧
      decodeTableWord 65 0x00001009000000000 = some .rdPllBaseCpu ∧
      decodeTableWord 65 0x00001009400000000 = some .rdPllMiscCpu ∧
      decodeTableWord 65 0x00001009800000000 = some .rdPllOutaCpu ∧
      decodeTableWord 65 0x00001009C00000000 = some .rdPllOutbCpu ∧
      decodeTableWord 65 0x0000100A000000000 = some .rdPllBaseUsb ∧
      decodeTableWord 65 0x0000100A400000000 = some .rdPllMiscUsb ∧
      decodeTableWord 65 0x0000100A800000000 = some .rdPllOutaUsb ∧
      decodeTableWord 65 0x0000100AC00000000 = some .rdPllOutbUsb := by
  decide

theorem test_decode_pll_writes :
    decodeTableWord 65 0x10001008001234567 = some (.wrPllBaseSys 0x01234567) ∧
      decodeTableWord 65 0x100010084FFFFFFFF = some (.wrPllMiscSys 0xFFFFFFFF) ∧
      decodeTableWord 65 0x1000100888011B00C = some (.wrPllOutaSys 0x8011B00C) ∧
      decodeTableWord 65 0x10001008C00010111 = some (.wrPllOutbSys 0x00010111) ∧
      decodeTableWord 65 0x1000100905A5A1E2D = some (.wrPllBaseCpu 0x5A5A1E2D) ∧
      decodeTableWord 65 0x1000100940000003E = some (.wrPllMiscCpu 0x0000003E) ∧
      decodeTableWord 65 0x100010098A5C3F00F = some (.wrPllOutaCpu 0xA5C3F00F) ∧
      decodeTableWord 65 0x10001009C80000001 = some (.wrPllOutbCpu 0x80000001) ∧
      decodeTableWord 65 0x1000100A001234567 = some (.wrPllBaseUsb 0x01234567) ∧
      decodeTableWord 65 0x1000100A4FFFFFFFF = some (.wrPllMiscUsb 0xFFFFFFFF) ∧
      decodeTableWord 65 0x1000100A88011B00C = some (.wrPllOutaUsb 0x8011B00C) ∧
      decodeTableWord 65 0x1000100AC00010111 = some (.wrPllOutbUsb 0x00010111) := by
  decide

theorem test_decode_power_reads :
    decodeTableWord 65 0x00003000000000000 = some .rdPwrgateToggle ∧
      decodeTableWord 65 0x00003000400000000 = some .rdPwrgateStatus ∧
      decodeTableWord 65 0x00003000800000000 = some .rdRemoveClampingCmd ∧
      decodeTableWord 65 0x00002000400000000 = some .rdRamRepair := by
  decide

theorem test_decode_power_writes :
    decodeTableWord 65 0x1000300000000003E = some (.wrPwrgateToggle 0x0000003E) ∧
      decodeTableWord 65 0x100030004A5C3F00F = some (.wrPwrgateStatus 0xA5C3F00F) ∧
      decodeTableWord 65 0x10003000880000001 = some (.wrRemoveClampingCmd 0x80000001) ∧
      decodeTableWord 65 0x100020004FFFFFFFF = some (.wrRamRepair 0xFFFFFFFF) := by
  decide
/-- The refused words of vector V-DEC-1. -/
theorem test_decode_refused :
    decodeTableWord 65 0x10001008100000000 = none ∧ decodeTableWord 65 0x00001002400000000 = none ∧
      decodeTableWord 65 0x00005000000000000 = none ∧ decodeTableWord 65 0x00009000000000000 = none := by
  decide

/-- A 64-bit read word of the table's `nbits`, and bits above `T[64]`. -/
theorem test_decode_lengths :
    decodeTableWord 64 0x0001008000000000 = some .rdPllBaseSys ∧
      decode Config.default (bytesOfNat 8 0) = .error .notOneWord ∧
      decode Config.default (bytesOfNat 9 (2 ^ 65)) = .error .extraBits := by
  decide

/-! ### One step. `cold` is `COLD0`; the other start states change a few of its fields. -/

/-- The start state of the vectors. -/
abbrev cold : State := State.reset

/-- The reset lines, gates and partitions a word names under the spec's map. -/
abbrev lines (w : Word) : Lines := linesOfWord .spec w
abbrev gates (w : Word) : PerGate Bool := gatesOfWord .spec w
abbrev parts (w : Word) : PerPart Bool := .ofFn (namesPart .spec w)

/-- The value a read leaves in the master's `v`. -/
def got : Result → Option Word
  | .next t => some t.master.v
  | _ => none

/-- A field of the next state. -/
def field {α : Type} (f : State → α) : Result → Option α
  | .next t => some (f t)
  | _ => none

/-- The fault a command ends in. -/
def faultOf : Result → Option Fault
  | .fault k => some k
  | _ => none

/-- The refusal a command ends in. -/
def refusalOf : Result → Option Refusal
  | .refused r => some r
  | _ => none

/-- The system PLL up, as after vector V-PLL-1. -/
def sysUp : State :=
  { cold with
    pllBase := cold.pllBase.set .sys { divm := 12, divn := 432, divp := 1, enable := true, bypass := false }
    pllMisc := cold.pllMisc.set .sys { setup := 8, lockEnable := true }
    pllStable := cold.pllStable.set .sys true }

/-- Cluster `P` powered and unclamped, its non-CPU logic out of reset, the CPU gate closed: as after program P3's
command 60 and release steps 0 to 2. -/
def poweredP : State :=
  { sysUp with
    pwrStatus := parts 0x07
    clamp := { rail := false, nonCpuP := false, cpu0P := false, nonCpuE := true, cpuE := true }
    clkEnb := gates 0x3E
    rstDev := gates 0
    rstCmplx := { p := lines 0x000FFFFF, e := lines 0x01011111 }
    nonCpuInReset := { p := false, e := true } }

/-- The same with the gate open. -/
def gateOpen : State := { poweredP with clkEnb := gates 0x3F }

/-- The same with core 0 released. -/
def running : State := { gateOpen with rstCmplx := { p := lines 0x000EFEEE, e := lines 0x01011111 } }

/-- The system clock on tap `k` of the running system PLL, all four taps enabled. -/
def onTap (k : Nat) : State :=
  { sysUp with
    taps := sysUp.taps.set .sys (.replicate 4 { rstn := true, clken := true, ratio := 4 })
    sysSrc := BitVec.ofNat 32 (2 + k) }

/-- A chip with RAM repair and one with a single cluster. -/
def withRepair : State := { cold with cfg := { Config.default with ramRepairPresent := true } }
def single : State := { cold with cfg := { Config.default with dualCluster := false } }

/-- All three PLLs with four taps. -/
def manyTaps : State :=
  { cold with
    cfg := { Config.default with ntaps := .ofFn fun _ => 4, tapRatio := .ofFn fun _ => .replicate 4 2 }
    taps := .ofFn fun _ => .replicate 4 .off }

/-- A chip with three taps of 8 bits each in `PLL_OUTA` and two in `PLL_OUTB`; its system PLL has four taps and its CPU
PLL three. -/
def unevenTaps : State :=
  { cold with
    cfg :=
      { Config.default with
        ntaps := { sys := 4, cpu := 3, usb := 0 }
        tapRatio := { sys := [1, 2, 3, 4], cpu := [5, 6, 7], usb := [] }
        map :=
          { RegMap.spec with
            place :=
              { RegMap.spec.place with
                outA := [⟨0, 1, ⟨2, 6⟩⟩, ⟨8, 9, ⟨10, 6⟩⟩, ⟨16, 17, ⟨18, 6⟩⟩]
                outB := [⟨31, 30, ⟨0, 8⟩⟩, ⟨29, 28, ⟨8, 8⟩⟩] } } }
    taps := { sys := .replicate 4 .off, cpu := .replicate 3 .off, usb := [] } }

/-- V-PLL-1 (commands 7 and 8): the computed `LOCK`; V-PLL-2: not without `LOCK_ENABLE`. -/
theorem test_rd_pll_base :
    got (exec .rdPllBaseSys sysUp) = some 0x4811B00C ∧
      got (exec .rdPllBaseSys { sysUp with pllMisc := cold.pllMisc }) = some 0x4011B00C ∧
      got (exec .rdPllMiscSys sysUp) = some 0x00040008 := by
  decide

/-- V-PLL-4: dividers of an enabled PLL; V-PLL-5: legal when disabling. -/
theorem test_wr_pll_base_dividers :
    faultOf (exec (.wrPllBaseSys 0x4011B00D) sysUp) = some (.pllReprogramWhileEnabled .sys) ∧
      field (fun t => t.pllStable.sys) (exec (.wrPllBaseSys 0x8011B00D) sysUp) = some false ∧
      field (fun t => t.pllStable.sys) (exec (.wrPllBaseSys 0xC011B00C) sysUp) = some true := by
  decide

/-- V-PLL-10 (command 5): the output the system clock runs from is lost with the store done. -/
theorem test_wr_pll_base_clock_lost :
    faultOf (exec (.wrPllBaseSys 0x0011B00C) { sysUp with sysSrc := 1 }) = some (.clockLost .sys) := by
  decide

/-- The same: the run ends with the register as written and the write recorded. -/
theorem test_clock_lost_stored :
    let s := runMove ({ sysUp with sysSrc := 1 }.withFetchWord 65 0x1000100800011B00C) .master
    s.fault = some (.clockLost .sys) ∧ s.pllBase.sys.enable = false ∧ s.pllStable.sys = false ∧
      s.history = [.wr (.pllBase .sys) 0x00010080 0x0011B00C] := by
  decide

/-- Stores made before the check that raises: `PARTID` (V-PWR-3's command), the lower clamp, the first tap; a refusal
changes nothing but the mark (V-PWR-4). -/
theorem test_stores_before_a_hazard :
    (runMove ({ cold with pgPending := some .rail }.withFetchWord 65 0x10003000000000103) .master).partId = 3 ∧
      (runMove ({ cold with pwrStatus := parts 1 }.withFetchWord 65 0x10003000800000003) .master).clampPending =
        { rail := true, nonCpuP := false, cpu0P := false, nonCpuE := false, cpuE := false } ∧
      (runMove (cold.withFetchWord 65 0x10001008800010400) .master).taps.sys =
        [{ rstn := false, clken := false, ratio := 4 }, .off, .off, .off] ∧
      (runMove (cold.withFetchWord 65 0x10003000000000105) .master).partId = 0 := by
  decide

/-- Rule R16: a chip whose `DIVN` is 12 bits wide and starts at bit 6. -/
theorem test_field_width_of_configuration :
    let m : RegMap :=
      { RegMap.spec with place := { RegMap.spec.place with pll := { RegMap.spec.place.pll with divn := ⟨6, 12⟩ } } }
    field (fun t => t.pllBase.usb.divn) (exec (.wrPllBaseUsb 0x0003FFC0) { cold with cfg.map := m }) = some 0xFFF ∧
      m.wf = true := by
  decide

/-- Rule R8: another `RESET_STATE` is another configuration. -/
theorem test_reset_state_of_configuration :
    (State.powerOn { Config.default with resetState := { HwState.cold0 with sysSrc := 5 } }).sysSrc = 5 ∧
      State.reset.toHwState = Config.default.resetState := by
  decide

/-- V-DEC-2: reserved bits are dropped. -/
theorem test_wr_pll_base_usb :
    field (fun t => t.pllBase.usb) (exec (.wrPllBaseUsb 0xBFFFFFFF) cold) =
      some { divm := 31, divn := 1023, divp := 7, enable := false, bypass := true } := by
  decide

/-- V-DEC-2, V-PLL-2. -/
theorem test_wr_pll_misc :
    field (fun t => t.pllMisc.sys) (exec (.wrPllMiscSys 0xFFFFFFFF) cold) =
      some { setup := 0xFFFF, lockEnable := true } := by
  decide

/-- V-PLL-6 (command 3), V-PLL-7 (commands 2 and 4). -/
theorem test_wr_taps :
    faultOf (exec (.wrPllOutaSys 0x04000401) cold) = some (.tapEnabledBeforeBase .sys 0) ∧
      field (fun t => tapAt t.taps.sys 3) (exec (.wrPllOutbSys 0xFFFFFFFF) sysUp) =
        some { rstn := true, clken := true, ratio := 0xFF } := by
  decide

/-- V-PLL-7 (command 3), V-PLL-7b (command 3): a tap the PLL does not have reads 0. -/
theorem test_rd_taps :
    let on : Tap := { rstn := true, clken := true, ratio := 4 }
    got (exec .rdPllOutaSys { cold with taps := cold.taps.set .sys [on, on, .off, .off] }) = some 0x04030403 ∧
      got (exec .rdPllOutbSys
        { cold with
          cfg := { Config.default with ntaps := { sys := 3, cpu := 0, usb := 0 } }
          taps := cold.taps.set .sys (.replicate 3 { on with ratio := 2 }) }) = some 0x00000203 := by
  decide

/-- Rules R16, R37: three taps in `PLL_OUTA`, a fourth in `PLL_OUTB`; a register that holds no tap is absent. -/
theorem test_taps_of_configuration :
    unevenTaps.cfg.wf = true ∧
      field (fun t => t.taps.sys) (exec (.wrPllOutaSys 0xFFFCF8F4) unevenTaps) =
        some [{ Tap.off with ratio := 0x3D }, { Tap.off with ratio := 0x3E }, { Tap.off with ratio := 0x3F }, .off] ∧
      field (fun t => tapAt t.taps.sys 3) (exec (.wrPllOutbSys 0x00000FA5) unevenTaps) =
        some { Tap.off with ratio := 0xA5 } ∧
      got (exec .rdPllOutaCpu
        { unevenTaps with taps := unevenTaps.taps.set .cpu (.replicate 3 ⟨true, true, 1⟩) }) = some 0x070707 ∧
      refusalOf (exec .rdPllOutbCpu unevenTaps) = some (.absentRegister (.pllOutB .cpu)) := by
  decide

/-- Rule R282 with those taps: `R`, then `R | E`, for each register that has a tap of the PLL. -/
theorem test_tap_words_of_configuration :
    programTaps unevenTaps.cfg .sys =
        [.cmd (.wr (.pllOutA .sys) (.lit 0x0C0804)), .cmd (.wr (.pllOutA .sys) (.lit 0x0F0B07)),
          .cmd (.wr (.pllOutB .sys) (.lit 4)), .cmd (.wr (.pllOutB .sys) (.lit 0xC0000004))] ∧
      (programTaps unevenTaps.cfg .cpu).length = 2 ∧ programTaps unevenTaps.cfg .usb = [] := by
  decide

/-- Rule R107 with its own masks, and conflict C3: "changes one configuration constant". -/
theorem test_reset_masks :
    core0AssertMask Config.default = 0x00011111 ∧ core0ReleaseMask Config.default = 0x00010111 ∧
      secondaryMask Config.default .p = 0x000EEEEE ∧ secondaryMask Config.default .e = 0 ∧
      core0ReleaseMask
        { Config.default with masks := { ResetMasks.spec with release := .ofFn fun _ => true } } = 0x00011111 := by
  decide

/-- Rule R300 with its own characters, and another chip's. -/
theorem test_posts :
    Posts.spec = ⟨0x61, 0x62, 0x63, 0x64, 0x65, 0x46, 0x42, 0x55⟩ ∧
      (transition5 { Config.default with posts := { Posts.spec with handedOff := 0x21 } }).getLast? =
        some (.cmd (.post 0x21)) := by
  decide

/-- V-PLL-11 and V-DEC-1: absent registers. -/
theorem test_absent_refused :
    refusalOf (exec .rdPllBaseUsb { cold with cfg := { Config.default with npll := 2 } }) =
        some (.absentRegister (.pllBase .usb)) ∧
      refusalOf (exec (.wrPllOutaCpu 0) cold) = some (.absentRegister (.pllOutA .cpu)) ∧
      refusalOf (exec (.wrRamRepair 1) cold) = some (.absentRegister .ramRepair) ∧
      refusalOf (exec .rdRstCmplxSetE single) = some (.absentRegister (.rstCmplxSet .e)) := by
  decide

/-- V-PLL-8: a PLL enabled with a zero divider never stabilises. -/
theorem test_zero_divider_agent :
    agentEnabled
        { cold with
          pllBase := cold.pllBase.set .cpu { divm := 0, divn := 600, divp := 0, enable := true, bypass := false } }
        (.pll .cpu) = false := by
  decide

/-- V-CLK-1, V-CLK-2, V-CLK-3. -/
theorem test_wr_sclk_source :
    faultOf (exec (.wrSclkBurstPolicy 1) { sysUp with pllStable := cold.pllStable }) = some (.clockLost .sys) ∧
      field (fun t => t.sysSrc) (exec (.wrSclkBurstPolicy 0xFFFFFFF1) sysUp) = some 1 ∧
      faultOf (exec (.wrSclkBurstPolicy 6) sysUp) = some (.clockLost .sys) := by
  decide

/-- V-CLK-5: any selector is stored while the gate is closed. -/
theorem test_wr_cclk_source :
    field (fun t => t.cpuSrc) (exec (.wrCclkBurstPolicy 9) cold) = some 9 ∧
      faultOf (exec (.wrCclkBurstPolicy 9) gateOpen) = some (.clockLost .cpu) := by
  decide

/-- V-DEC-2. -/
theorem test_wr_dividers :
    field (fun t => dividerWord RegMap.spec.place.sclkDivider t.sclkDivider) (exec (.wrSclkDivider 0xFFFFFFFF) cold) =
        some 0x8000FFFF ∧
      field (fun t => dividerWord RegMap.spec.place.cclkDivider t.cclkDivider)
        (exec (.wrCclkDivider 0x80000000) cold) = some 0x80000000 := by
  decide

/-- V-CLK-6 (commands 2 and 4), V-CLK-7 (command 5), V-CLK-7b, V-CLK-8. -/
theorem test_wr_clk_enb :
    field (fun t => t.clkEnb) (exec (.wrClkEnb 0x3E) cold) = some (gates 0x3E) ∧
      faultOf (exec (.wrClkEnb 0x3F) cold) = some .cpuClockEnabledBadly ∧
      field (fun t => t.clkEnb) (exec (.wrClkEnb 0x3F) poweredP) = some (gates 0x3F) ∧
      faultOf (exec (.wrClkEnb 0x3F) { poweredP with cpuSrc := 5 }) = some (.clockLost .cpu) := by
  decide

/-- V-CLK-7b: core 0's own line already deasserted. -/
theorem test_wr_clk_enb_not_in_reset :
    faultOf (exec (.wrClkEnb 0x3F) { poweredP with rstCmplx := { p := lines 0x010FFFFE, e := lines 0x01011111 } }) =
      some .cpuClockEnabledBadly := by
  decide

/-- V-PWR-1 (commands 3 to 5), V-PWR-2 (command 5), V-PWR-3, V-PWR-4. -/
theorem test_wr_toggle :
    field (fun t => t.pgPending) (exec (.wrPwrgateToggle 0x100) cold) = some (some .rail) ∧
      field (fun t => t.pwrStatus) (exec (.wrPwrgateToggle 0x100) cold) = some (parts 0) ∧
      faultOf (exec (.wrPwrgateToggle 0x101) { cold with pwrStatus := parts 0x08 }) = some (.powerDependency .nonCpuP) ∧
      faultOf (exec (.wrPwrgateToggle 0x103) { cold with pgPending := some .rail }) = some .toggleWhilePending := by
  decide

/-- V-PWR-4, V-PWR-5 (command 4). -/
theorem test_wr_toggle_reserved :
    field (fun t => t.partId) (exec (.wrPwrgateToggle 0x1F) cold) = some 0x1F ∧
      refusalOf (exec (.wrPwrgateToggle 0x105) cold) = some .reservedPartition ∧
      faultOf (exec (.wrPwrgateToggle 0x100) { cold with pwrStatus := parts 0x03 }) =
        some (.powerDependency .rail) := by
  decide

/-- V-PWR-1 (commands 4 and 5). -/
theorem test_rd_power :
    got (exec .rdPwrgateToggle { cold with pgPending := some .rail }) = some 0x100 ∧
      got (exec .rdPwrgateToggle { cold with partId := 3 }) = some 3 ∧
      got (exec .rdPwrgateStatus poweredP) = some 7 ∧ got (exec .rdRemoveClampingCmd poweredP) = some 0 := by
  decide

/-- V-PWR-6. -/
theorem test_wr_clamps :
    field (fun t => t.clampPending.rail) (exec (.wrRemoveClampingCmd 1) { cold with pwrStatus := parts 1 }) =
        some true ∧
      faultOf (exec (.wrRemoveClampingCmd 3) { cold with pwrStatus := parts 1 }) =
        some (.clampRemovedUnpowered .nonCpuP) := by
  decide

/-- V-PWR-8. -/
theorem test_ram_repair :
    field (fun t => t.repairPending) (exec (.wrRamRepair 1) withRepair) = some true ∧
      got (exec .rdRamRepair { withRepair with ramReq := true, ramSts := true }) = some 3 ∧
      agentEnabled { withRepair with ramReq := true, repairPending := true } .ramRepair = false ∧
      agentEnabled { withRepair with ramReq := true, repairPending := true, pwrStatus := parts 1 } .ramRepair =
        true := by
  decide

/-- V-PWR-9, V-DEC-1. -/
theorem test_wr_status_read_only :
    field (fun t => t.pwrStatus) (exec (.wrPwrgateStatus 0xFFFFFFFF) poweredP) = some (parts 7) ∧
      refusalOf (exec (.wrFlags 0) cold) = some (.bootRecordWrite .flags) := by
  decide

/-- V-RST-1. -/
theorem test_wr_rst_dev :
    field (fun t => t.rstDev) (exec (.wrRstDevClr 0x3E) cold) = some (gates 0x01) ∧
      field (fun t => t.rstDev) (exec (.wrRstDevSet 0x10) { cold with rstDev := gates 1 }) = some (gates 0x11) ∧
      got (exec .rdRstDevSet cold) = some 0x3D ∧ got (exec .rdRstDevClr cold) = some 0x3D := by
  decide

/-- V-RST-2, V-RST-3. -/
theorem test_reset_released_unpowered :
    faultOf (exec (.wrRstDevClr 1) cold) = some (.resetReleasedUnpowered .cpuComplex) ∧
      faultOf (exec (.wrRstCmplxClrE 0x01000000) cold) = some (.resetReleasedUnpowered (.nonCpu .e)) := by
  decide

/-- V-RST-4, V-RST-5 (commands 5 and 7), V-RST-6, V-RST-7. -/
theorem test_wr_rst_cmplx_clr :
    faultOf (exec (.wrRstCmplxClrP 0x00010111) { gateOpen with nonCpuInReset := .ofFn fun _ => true }) =
        some (.core0ReleasedBeforeNonCpu .p) ∧
      field (fun t => t.rstCmplx.p) (exec (.wrRstCmplxClrP 0x00001000) poweredP) = some (lines 0x000FEFFF) ∧
      faultOf (exec (.wrRstCmplxClrP 0x00010111) poweredP) = some (.core0ReleasedWithoutClock .p) ∧
      field (fun t => t.rstCmplx.p) (exec (.wrRstCmplxClrP 0x00010111) gateOpen) = some (lines 0x000EFEEE) := by
  decide

/-- V-RST-6, V-RST-7, V-RST-8 (command 1). -/
theorem test_wr_rst_cmplx_clr_refused :
    faultOf (exec (.wrRstCmplxClrP 0x00010111) { gateOpen with softRst := { p := 5, e := 0 } }) =
        some .softRstNotMirrored ∧
      refusalOf (exec (.wrRstCmplxClrP 2) gateOpen) = some .secondaryCoreRelease ∧
      field (fun t => t.rstCmplx.p)
        (exec (.wrRstCmplxClrP 2) { cold with rstCmplx := { p := lines 0x010FFFFD, e := lines 0x01011111 } }) =
        some (lines 0x010FFFFD) := by
  decide

/-- V-RST-9 (commands 1 and 6): the exemption of release step 4. -/
theorem test_wr_rst_cmplx_clr_e :
    field (fun t => t.rstCmplx.e)
        (exec (.wrRstCmplxClrE 0x01000000)
          { cold with cfg := { Config.default with crossClusterClear := true } }) = some (lines 0x00011111) ∧
      faultOf (exec (.wrRstCmplxClrE 0x01000001)
          { cold with cfg := { Config.default with crossClusterClear := true } }) =
        some (.resetReleasedUnpowered (.nonCpu .e)) := by
  decide

/-- V-DEC-2, V-RST-10 (command 7). -/
theorem test_wr_rst_cmplx_set :
    field (fun t => t.rstCmplx.e) (exec (.wrRstCmplxSetE 0xFFFFFFFF) cold) = some (lines 0x01011111) ∧
      field (fun t => t.nonCpuInReset.p) (exec (.wrRstCmplxSetP 0x01000000) poweredP) = some true := by
  decide

/-- V-RST-10 (commands 4 and 5), V-DEC-2. -/
theorem test_reset_status_and_soft_reset :
    got (exec .rdRstCmplxStatusP poweredP) = some 0 ∧
      field (fun t => t.nonCpuInReset.p) (exec (.wrRstCmplxStatusP 1) poweredP) = some false ∧
      field (fun t => t.softRst.p) (exec (.wrCpuSoftrstCtrlP 0xFFFFFFFF) cold) = some 0xFFFFFFFF := by
  decide

/-- V-TMR-6, V-TMR-7 (commands 9 and 11). -/
theorem test_wr_tmr_ptv :
    refusalOf (exec (.wrTmrPtv 0x80000009) { cold with cfg := { Config.default with tmrMax := 8 } }) =
        some .timerSpan ∧
      field (fun t => t.tmrExpired) (exec (.wrTmrPtv 0x80000005) { cold with tmrExpired := true }) = some false ∧
      field (fun t => t.tmrRunning) (exec (.wrTmrPtv 0x00000005) { cold with tmrRunning := true }) = some false := by
  decide

/-- V-PWR-7 (command 3), V-PWR-7b (command 2), V-TMR-8 (commands 2 and 4): `bound + 1 ≤ PTV`. -/
theorem test_settle_covered :
    (settleCovered { cold with clampPending := .ofFn fun i => i == .cpuE } 11).clamp.cpuE = true ∧
      settleCovered { cold with clampPending := .ofFn fun i => i == .cpuE } 10 = .empty ∧
      (settleCovered { sysUp with pllStable := cold.pllStable } 301).pll.sys = true ∧
      settleCovered { sysUp with pllStable := cold.pllStable } 300 = .empty := by
  decide

/-- V-TMR-7: the countdown is frozen while the timer's gate is closed. -/
theorem test_timer_agent :
    agentEnabled { cold with tmrRunning := true, clkEnb := gates 0 } .timer = false ∧
      agentEnabled { cold with tmrRunning := true } .timer = true := by
  decide

/-- A chip whose stalls return although they cover a PLL with a zero divider (rule R281, case U1). -/
abbrev returning (s : State) : State := { s with cfg := { s.cfg with zeroDividerStall := .returns } }

/-- Rules R247 and R321: a covered PLL with a zero divider holds a countdown up for ever; rule R281 and case U1: it
holds none up, and one that can stabilise does. -/
theorem test_zero_divider_wait :
    let s : State :=
      { cold with tmrRunning := true, tmrSettle := { SettleSet.empty with pll := .ofFn fun p => p == .cpu } }
    let b : PllBase := { divm := 0, divn := 600, divp := 0, enable := true, bypass := false }
    agentEnabled { s with pllBase := cold.pllBase.set .cpu b } .timer = false ∧
      agentEnabled (returning { s with pllBase := cold.pllBase.set .cpu b }) .timer = true ∧
      agentEnabled (returning { s with pllBase := cold.pllBase.set .cpu { b with divm := 12 } }) .timer = false := by
  decide

/-- V-FD-1 at the edges of the first range; V-FD-1's 15 is "unknown". -/
theorem test_code_of_count :
    codeOfCount Config.default 728 = 15 ∧ codeOfCount Config.default 729 = 0 ∧
      codeOfCount Config.default 735 = 0 ∧ codeOfCount Config.default 736 = 15 ∧
      codeOfCount Config.default 790 = 1 ∧ codeOfCount Config.default 1022 = 2 := by
  decide

/-- Rules R16, R106, R276: a chip with two oscillators, code 9 for 13 MHz and code 12 for 12 MHz, its default row. -/
theorem test_codes_of_configuration :
    let row : Oscillator := { osc12MHz with code := 12 }
    let cfg : Config :=
      { Config.default with
        oscSet := [row, { osc12MHz with kHz := 13000, code := 9, freq := freqRow 1 13, range := countRow 793 }]
        oscDefault := row }
    cfg.wf = true ∧ codeOfCount cfg 732 = 12 ∧ codeOfCount cfg 793 = 9 ∧ codeOfCount cfg 1025 = 15 ∧
      oscSupported cfg 9 = true ∧ oscSupported cfg 0 = false ∧ (freqEntry cfg 9).usecDivisor = 13 ∧
      (oscRow cfg 0).code = 12 := by
  decide

/-- V-DEC-2. -/
theorem test_wr_osc :
    field (fun t => (t.pllRefDiv, t.oscFreq)) (exec (.wrOscCtrl 0xFFFFFFFF) cold) = some (3, 15) ∧
      field (fun t => (t.refClkWin, t.detBusy)) (exec (.wrOscFreqDet 0x0000000F) cold) = some (15, false) ∧
      field (fun t => (t.refClkWin, t.detBusy)) (exec (.wrOscFreqDet 0x80000001) cold) = some (1, true) := by
  decide

/-- Rules R261, R269 and case U12. -/
theorem test_cluster_control :
    field (fun t => t.activeCluster) (exec (.wrClusterControl 1) cold) = some .e ∧
      refusalOf (exec (.wrClusterControl 1) single) = some .singleCluster ∧
      got (exec .rdClusterControl { cold with activeCluster := .e }) = some 1 := by
  decide

/-- Rules R49, R82: the record's words, and its bytes with the low byte first. -/
theorem test_boot_record :
    got (exec .rdFlags { cold with bir := { cold.bir with devInit := true } }) = some 2 ∧
      bootRecordBytes { cold with bir := { cold.bir with sigVersion := 0x12345678 } } =
        [0x78, 0x56, 0x34, 0x12, 0, 0, 0, 0, 0, 0, 0, 0, 0, 0, 0, 0, 0, 0, 0, 0] := by
  decide

/-- Rule R58 on the state after the release: core 0 runs, and not before. -/
theorem test_core0_runs : core0Runs running .p = true ∧ core0Runs gateOpen .p = false := by decide

/-- V-TMR-5: the words of a stall with `TMR_MAX = 8` and `d = 8`. -/
theorem test_stall_words :
    stallUs { Config.default with tmrMax := 8 } 8 =
      [.cmd (.wr .tmrPtv (.lit 0x80000008)), .cmd (.poll .tmrSts 1 1), .cmd (.wr .tmrPtv (.lit 0x80000002)),
        .cmd (.poll .tmrSts 1 1)] := by
  decide

/-- The first transaction after `State.withFetchWord` is the word's command. -/
theorem test_with_fetch_word :
    field (fun t => (t.clkEnb, t.history)) (step (cold.withFetchWord 65 0x1000100200000003E)) =
      some (gates 0x3E, [.wr .clkEnb 0x00010020 0x3E]) := by
  decide


/-! ### Witnesses: for every obligation with hypotheses, states and operands that meet them all, at the ends of the
ranges its clauses name. -/

theorem witness_DecodeOfEncode : Config.default.basesOk = true ∧ Config.default.map.offsetsOk = true := by decide

theorem witness_EncodeOfDecode :
    decodeWord Config.default 0x1000100808011B00C = .ok (.wrPllBaseSys 0x8011B00C) ∧
      Instr.isWrite (.wrPllBaseSys 0x8011B00C) = true ∧
      decodeWord Config.default 0x000080010FFFFFFFF = .ok .rdFlags ∧ Instr.isWrite .rdFlags = false := by
  decide

theorem witness_MisalignedRefused :
    (0x00010081 : Word).extractLsb' 0 2 ≠ 0 ∧ (0xFFFFFFFF : Word).extractLsb' 0 2 ≠ 0 ∧
      (0x10001008100000000 : BitVec 65).extractLsb' 32 32 = (0x00010081 : Word) := by
  decide

/-- Outside just above the last aperture and just below the first; the first and the last word of `AHB` and `DBG`; the
unnamed offsets `0x00C` and `0x024` of `CAR` and its last word. -/
theorem witness_UnmappedRefused :
    cold.cfg.basesOk = true ∧
      (∀ x ∈ [(0x00081000 : Word), 0x0000FFFC], x.toNat % 4 = 0 ∧ ∀ a : Aperture,
        x.toNat < (cold.cfg.base.get a).toNat ∨
          (cold.cfg.base.get a).toNat + cold.cfg.map.apertureBytes ≤ x.toNat) ∧
      (∀ y ∈ [((0x00050000 : Word), Aperture.ahb), (0x00050FFC, .ahb), (0x00070000, .dbg), (0x00070FFC, .dbg),
          (0x0001000C, .car), (0x00010024, .car), (0x00010FFC, .car)],
        y.1.toNat % 4 = 0 ∧ (cold.cfg.base.get y.2).toNat ≤ y.1.toNat ∧
          y.1.toNat < (cold.cfg.base.get y.2).toNat + cold.cfg.map.apertureBytes ∧
          (y.2 = .ahb ∨ y.2 = .dbg ∨ ∀ r ∈ Reg.all, r.aperture = y.2 →
            (cold.cfg.base.get y.2).toNat + r.offset cold.cfg.map ≠ y.1.toNat)) := by
  refine ⟨by decide, ?_, by decide⟩
  intro x hx
  rcases List.mem_pair.1 hx with rfl | rfl <;> exact ⟨by decide, fun a => by cases a <;> decide⟩

theorem witness_AbsentRegisterRefused :
    Instr.wf cold.cfg (.wrPllOutaCpu 0) = false ∧ Instr.wf cold.cfg .rdPllOutaSys = true := by
  decide

/-- A state that has one command word to issue. -/
abbrev oneWord (s : State) (w : Nat) : State := s.withFetchWord 65 w

theorem witness_StepRunsDecoded :
    (oneWord cold 0x1000100200000003E).fault = none ∧ (oneWord cold 0x1000100200000003E).refused = false ∧
      (oneWord cold 0x1000100200000003E).sched = [] ∧
      (oneWord cold 0x1000100200000003E).master.prog = [.cmd (.raw (bytesOfNat 9 0x1000100200000003E))] ∧
      decode cold.cfg (bytesOfNat 9 0x1000100200000003E) = .ok (.wrClkEnb 0x3E) := by
  decide

theorem witness_EndedRunStays :
    (({ cold with fault := some .toggleWhilePending } : State).fault = some .toggleWhilePending ∧
        ({ cold with refused := true } : State).fault = none ∧ ({ cold with refused := true } : State).ended = true) ∧
      cold.ended = false ∧
      faultOf (takeMove .master (oneWord cold 0x1000100200000003F)) = some .cpuClockEnabledBadly ∧
      refusalOf (takeMove .master (oneWord cold 0x10008001000000000)) = some (.bootRecordWrite .flags) ∧
      faultOf (takeMove .master (oneWord cold 0x10001001000000005)) = some (.clockLost .sys) := by
  decide

/-- A state in which the master is to write one register. -/
abbrev oneWrite (s : State) (r : Reg) (d : Word) : State := s.load [.cmd (.wr r (.lit d))]

/-- Each register: a selector at a tap that is off and at a reserved code, a gate opened onto a reserved code, a PLL and
a tap disabled under the system clock; in states that pass the clock check. -/
theorem witness_ClockLostStored :
    cold.cfg.map = .spec ∧ cold.ended = false ∧
      (oneWrite cold .sclkBurstPolicy 5).master.prog = [.cmd (.wr .sclkBurstPolicy (.lit 5))] ∧
      faultOf (takeMove .master (oneWrite cold .sclkBurstPolicy 5)) = some (.clockLost .sys) ∧
      faultOf (takeMove .master (oneWrite gateOpen .cclkBurstPolicy 15)) = some (.clockLost .cpu) ∧
      faultOf (takeMove .master (oneWrite { poweredP with cpuSrc := 5 } .clkEnb 0x3F)) = some (.clockLost .cpu) ∧
      faultOf (takeMove .master (oneWrite { sysUp with sysSrc := 1 } (.pllBase .sys) 0x0011B00C)) =
        some (.clockLost .sys) ∧
      faultOf (takeMove .master (oneWrite (onTap 0) (.pllOutA .sys) 0x04000400)) = some (.clockLost .sys) ∧
      faultOf (takeMove .master (oneWrite (onTap 3) (.pllOutB .sys) 0x04000400)) = some (.clockLost .sys) ∧
      ∀ s ∈ [cold, gateOpen, poweredP, { sysUp with sysSrc := 1 }, onTap 0, onTap 3],
        clockFault s = none ∧ (s.taps.get .sys).length = s.cfg.ntaps.get .sys := by
  decide

/-- Each clause: both toggle hazards, a clamp above a powered partition, the first and the second tap. -/
theorem witness_HazardKeepsEarlierStores :
    faultOf (takeMove .master (oneWrite { cold with pgPending := some .rail } .pwrgateToggle 0x103)) =
        some .toggleWhilePending ∧
      faultOf (takeMove .master (oneWrite cold .pwrgateToggle 0x102)) = some (.powerDependency .cpu0P) ∧
      faultOf (takeMove .master (oneWrite { cold with pwrStatus := parts 1 } .removeClampingCmd 3)) =
        some (.clampRemovedUnpowered .nonCpuP) ∧
      faultOf (takeMove .master (oneWrite cold (.pllOutA .sys) 0x00010400)) = some (.tapEnabledBeforeBase .sys 1) ∧
      faultOf (takeMove .master (oneWrite cold (.pllOutB .sys) 0x00000401)) = some (.tapEnabledBeforeBase .sys 2) ∧
      cold.cfg.map = .spec ∧ cold.ended = false ∧ (cold.taps.get .sys).length = cold.cfg.ntaps.get .sys ∧
      RegMap.spec.partId = { rail := 0, nonCpuP := 1, cpu0P := 2, nonCpuE := 3, cpuE := 4 } := by
  decide

theorem witness_ClockReads :
    cold.cfg.map = .spec ∧
      (Instr.rdClkEnb, (0x020 : Word)) ∈ [(Instr.rdOscCtrl, (0x000 : Word)), (.rdSclkBurstPolicy, 0x010),
        (.rdSclkDivider, 0x014), (.rdCclkBurstPolicy, 0x018), (.rdCclkDivider, 0x01C), (.rdClkEnb, 0x020)] := by
  decide

theorem witness_ResetReads : cold.cfg.map = .spec ∧ cold.cfg.dualCluster = true := by decide

/-- Present and absent. -/
theorem witness_PllReads :
    cold.cfg.map = .spec ∧ cold.cfg.pllPresent .usb = true ∧
      ({ cold with cfg := { Config.default with npll := 2 } } : State).cfg.pllPresent .usb = false ∧
      (PllId.usb, (2 : Word), Instr.rdPllBaseUsb, Instr.rdPllMiscUsb) ∈
        [(PllId.sys, (0 : Word), Instr.rdPllBaseSys, Instr.rdPllMiscSys),
          (.cpu, 1, .rdPllBaseCpu, .rdPllMiscCpu), (.usb, 2, .rdPllBaseUsb, .rdPllMiscUsb)] := by
  decide

theorem witness_TapReads :
    manyTaps.cfg.map = .spec ∧ manyTaps.cfg.pllPresent .usb = true ∧ 0 < manyTaps.cfg.ntaps.get .usb ∧
      2 < manyTaps.cfg.ntaps.get .usb ∧
      ∃ half : Nat → BitVec 16, ∀ k, half k =
        if k < manyTaps.cfg.ntaps.get .usb then
          ((tapAt (manyTaps.taps.get .usb) k).ratio.setWidth 8 ++ 0#6 ++
            BitVec.ofBool (tapAt (manyTaps.taps.get .usb) k).clken ++
            BitVec.ofBool (tapAt (manyTaps.taps.get .usb) k).rstn).setWidth 16
        else 0 :=
  ⟨by decide, by decide, by decide, by decide, _, fun _ => rfl⟩

theorem witness_PowerReads : withRepair.cfg.map = .spec ∧ withRepair.cfg.ramRepairPresent = true := by decide

theorem witness_SupportReads : cold.cfg.map = .spec := by decide

theorem witness_BootRecordReads : cold.cfg.map = .spec := by decide

theorem witness_ReadOnlyWrites : clockFault cold = none ∧ cold.cfg.dualCluster = true := by decide

theorem witness_PlainWrites :
    cold.cfg.map = .spec ∧ clockFault cold = none ∧ cold.cfg.dualCluster = true ∧
      cold.cfg.pllPresent .usb = true := by
  decide

/-- Each of the selectors 0, 1, 2 and 5 names a clean source here; 6 and 15 name none. -/
theorem witness_SystemClockSwitch :
    let s : State :=
      { sysUp with taps := sysUp.taps.set .sys (.replicate 4 { rstn := true, clken := true, ratio := 4 }) }
    s.cfg.map = .spec ∧ (cpuGateOpen s = true → cclkOk s = true) ∧ pllOutOk s .sys = true ∧ 3 < s.cfg.ntaps.sys ∧
      tapOk s .sys 0 = true ∧ tapOk s .sys 3 = true ∧
      ∀ sel ∈ [6, 15], ¬(sel = 0 ∨ (sel = 1 ∧ pllOutOk s .sys = true) ∨
        (∃ k < 4, sel = 2 + k ∧ k < s.cfg.ntaps.sys ∧ tapOk s .sys k = true)) := by
  decide

theorem witness_CpuClockSwitch :
    cold.cfg.map = .spec ∧ sclkOk cold = true ∧ cpuGateOpen cold = false ∧ sclkOk gateOpen = true ∧
      ∀ sel ∈ [2, 3, 15], ¬(cpuGateOpen gateOpen = false ∨ sel = 0 ∨ (sel = 1 ∧ pllOutOk gateOpen .sys = true) ∨
        (sel = 2 ∧ pllOutOk gateOpen .cpu = true)) := by
  decide

theorem witness_ClockGateWrite :
    cold.cfg.map = .spec ∧ sclkOk cold = true ∧ cpuGateOpen cold = false ∧ isPowered cold .cpu0P = false ∧
      sclkOk poweredP = true ∧
      isPowered poweredP .cpu0P = true ∧ cclkOk { poweredP with cpuSrc := 5 } = false := by
  decide

theorem witness_PllBaseWrite :
    cold.cfg.map = .spec ∧ cold.cfg.pllPresent .usb = true ∧ (PllId.usb, Instr.wrPllBaseUsb 0x4003C00C) ∈
        [(PllId.sys, Instr.wrPllBaseSys 0x4003C00C), (.cpu, .wrPllBaseCpu 0x4003C00C),
          (.usb, .wrPllBaseUsb 0x4003C00C)] ∧
      clockFault
        { cold with
          pllBase := cold.pllBase.set .usb { divm := 12, divn := 960, divp := 0, enable := true, bypass := false }
          pllStable := cold.pllStable.set .usb false } = none ∧
      (sysUp.pllBase.get .sys).enable = true ∧
      clockFault { sysUp with sysSrc := 1, pllBase := cold.pllBase, pllStable := cold.pllStable } =
        some (.clockLost .sys) := by
  decide

/-- Every hypothesis of the tap statement at once, for the write of `PLL_OUTB[USB]`; the good and the bad clause. -/
theorem witness_TapWrite :
    manyTaps.cfg.map = .spec ∧ manyTaps.cfg.pllPresent .usb = true ∧ 2 < manyTaps.cfg.ntaps.get .usb ∧
      (manyTaps.taps.get .usb).length = manyTaps.cfg.ntaps.get .usb ∧
      pllOutOk manyTaps .usb = false ∧ pllOutOk sysUp .sys = true ∧
      (sysUp.taps.get .sys).length = sysUp.cfg.ntaps.get .sys ∧
      (∃ (new : Nat → Tap) (bad : Nat → Prop),
        (∀ k, new k =
          { rstn := (0x00000001 : Word).getLsbD (16 * (k % 2)), clken := (0x00000001 : Word).getLsbD (16 * (k % 2) + 1),
            ratio := ((0x00000001 : Word).extractLsb' (16 * (k % 2) + 8) 8).setWidth 32 }) ∧
        (∀ k, bad k ↔ k < manyTaps.cfg.ntaps.get .usb ∧ ((new k).clken = true ∨ (new k).rstn = true) ∧
          ((tapAt (manyTaps.taps.get .usb) k).clken, (tapAt (manyTaps.taps.get .usb) k).rstn) ≠
            ((new k).clken, (new k).rstn) ∧ pllOutOk manyTaps .usb = false) ∧ bad 2 ∧ ¬bad 3) :=
  ⟨by decide, by decide, by decide, by decide, by decide, by decide, by decide, _, _, fun _ => rfl,
    fun _ => Iff.rfl, by decide, by decide⟩

theorem witness_ToggleWrite :
    cold.cfg.map = .spec ∧ clockFault cold = none ∧ (0x104 : Word).getLsbD 8 = true ∧
      ((0x104 : Word).extractLsb' 0 5).toNat = RegMap.spec.partId.cpuE ∧
      5 ≤ ((0x105 : Word).extractLsb' 0 5).toNat ∧ (0x1F : Word).getLsbD 8 = false ∧
      RegMap.spec.partId = { rail := 0, nonCpuP := 1, cpu0P := 2, nonCpuE := 3, cpuE := 4 } := by
  decide

theorem witness_ClampWrite :
    poweredP.cfg.map = .spec ∧ clockFault poweredP = none ∧
      (∀ i ∈ Part.all, (7 : Word).getLsbD (RegMap.spec.partId.get i) = true → isPowered poweredP i = true) ∧
      (0x1F : Word).getLsbD 3 = true ∧ isPowered poweredP .nonCpuE = false ∧
      (∀ j ∈ Part.all, RegMap.spec.partId.get j < 3 → (0x1F : Word).getLsbD (RegMap.spec.partId.get j) = true →
        isPowered poweredP j = true) := by
  decide

theorem witness_RepairWrite :
    withRepair.cfg.map = .spec ∧ clockFault withRepair = none ∧ withRepair.cfg.ramRepairPresent = true := by
  decide

theorem witness_DeviceResetSet : cold.cfg.map = .spec ∧ clockFault cold = none := by decide

theorem witness_DeviceResetClear :
    cold.cfg.map = .spec ∧ clockFault cold = none ∧ isPowered cold .nonCpuP = false := by
  decide

theorem witness_ClusterResetSet :
    cold.cfg.map = .spec ∧ cold.cfg.clusterPresent .e = true ∧ clockFault cold = none ∧
      PerKind.ofFn (fun k => (RegMap.spec.place.lines.get k).lo) =
        { cpu := 0, dbg := 4, core := 8, wd := 12, cx := 16 } := by
  decide

/-- The release of core 0: the lines it changes, and none of the earlier clauses holds; with the gate closed, or with a
secondary core's line still asserted and named, one of them does. -/
theorem witness_ClusterResetClear :
    gateOpen.cfg.map = .spec ∧ gateOpen.cfg.clusterPresent .p = true ∧ clockFault gateOpen = none ∧
      (∀ k ∈ LineKind.all, ∀ n ∈ [0, 1, 3, 4, 31], ((releasedLines gateOpen .p 0x00010111).core.get k).getLsbD n =
        (lineAsserted gateOpen .p k n && decide (n < 4) && decide (n < gateOpen.cfg.ncores.get .p) &&
          (0x00010111 : Word).getLsbD ((RegMap.spec.place.lines.get k).lo + n))) ∧
      (releasedLines gateOpen .p 0x00010111).nonCpu =
        (nonCpuAsserted gateOpen .p && (0x00010111 : Word).getLsbD 24) ∧
      (releasedLines gateOpen .p 0x00010111).meets otherCoresLines = false ∧ isPowered gateOpen .cpu0P = true ∧
      nonCpuAsserted gateOpen .p = false ∧ gateOpen.nonCpuInReset.get .p = false ∧ cpuGateOpen gateOpen = true ∧
      gateOpen.softRst.p = gateOpen.softRst.e ∧ cpuGateOpen poweredP = false ∧
      lineAsserted gateOpen .p .cpu 1 = true := by
  decide

theorem witness_TimerWrite :
    cold.cfg.map = .spec ∧ clockFault cold = none ∧ ((0x9FFFFFFF : Word).extractLsb' 0 29).toNat ≤ cold.cfg.tmrMax ∧
      (0x9FFFFFFF : Word).getLsbD 31 = true ∧
      ({ cold with cfg := { Config.default with tmrMax := 8 } } : State).cfg.tmrMax <
        ((0x80000009 : Word).extractLsb' 0 29).toNat := by
  decide

theorem witness_ClusterControlWrite :
    single.cfg.map = .spec ∧ clockFault single = none ∧ single.cfg.dualCluster = false := by
  decide

theorem witness_ReadAfterWrite :
    cold.cfg.map = .spec ∧ field (fun _ => true) (exec (.wr 0xFFFFFFFF (.pllMisc .usb)) cold) = some true ∧
      field (fun _ => true) (exec (.wr 0xFFFFFFFE .clkEnb) cold) = some true := by
  decide

/-- A toggle start, and writes the other clause covers: a toggle without `START`, a countdown and a release. -/
theorem witness_WritesIdempotent :
    field (fun _ => true) (exec (.wr 0x100 .pwrgateToggle) cold) = some true ∧
      (0x100 : Word).getLsbD cold.cfg.map.place.start = true ∧
      field (fun _ => true) (exec (.wr 0x1F .pwrgateToggle) cold) = some true ∧
      (0x1F : Word).getLsbD cold.cfg.map.place.start = false ∧
      field (fun _ => true) (exec (.wr 0x80000005 .tmrPtv) cold) = some true ∧
      field (fun _ => true) (exec (.wr 0x00010111 (.rstCmplxClr .p)) gateOpen) = some true := by
  decide

theorem witness_AgentSteps :
    clockFault cold = none ∧
      (let s : State := { sysUp with pllStable := cold.pllStable }
       clockFault s = none ∧ s.cfg.pllPresent .sys = true ∧ (s.pllBase.get .sys).enable = true ∧
        s.pllStable.get .sys = false ∧ (s.pllBase.get .sys).divm ≠ 0 ∧ (s.pllBase.get .sys).divn ≠ 0) ∧
      (let s : State := { withRepair with repairPending := true, pwrStatus := parts 1 }
       clockFault s = none ∧ s.cfg.ramRepairPresent = true ∧ s.repairPending = true ∧ isPowered s .rail = true) ∧
      (let s : State := { poweredP with nonCpuInReset := .ofFn fun _ => true }
       clockFault s = none ∧ s.cfg.clusterPresent .p = true ∧ nonCpuAsserted s .p = false ∧
        s.nonCpuInReset.get .p = true ∧ isPowered s .nonCpuP = true) ∧
      (({ cold with clampPending := .ofFn fun _ => true } : State).clampPending.get .cpuE = true) ∧
      (clockFault running = none ∧ running.entry = none ∧ core0Runs running .p = true) := by
  decide

theorem witness_ToggleCompletes :
    clockFault { cold with pgPending := some .cpuE } = none ∧
      (isPowered cold .cpuE = false ∧ isPowered { cold with pwrStatus := parts 0x1F } .cpuE = true) := by
  decide

/-- With a fitted crystal of the set and with one that is none of them. -/
theorem witness_MeasurementCompletes :
    let s : State := { cold with detBusy := true, refClkWin := 1 }
    s.cfg.oscSetOk = true ∧ s.cfg.rangesOk = true ∧ s.cfg.outsideOk = true ∧ clockFault s = none ∧ s.detBusy = true ∧
      s.refClkWin = s.cfg.fdWin ∧ osc12MHz ∈ s.cfg.oscSet ∧ s.oscActual = some osc12MHz.kHz ∧
      ∀ x ∈ s.cfg.oscSet, ({ s with oscActual := none } : State).oscActual ≠ some x.kHz := by
  decide

/-- The state whose countdown expires at its next step. -/
def expiring : State := { cold with tmrRunning := true, sched := [.agent .timer] }

theorem witness_ExpiryWaitsForSettle :
    expiring.tmrExpired = false ∧ field (fun t => t.tmrExpired) (step expiring) = some true ∧
      clockFault expiring = none ∧ expiring.tmrRunning = true ∧ periphUsable expiring .timer = true ∧
      expiring.tmrSettle = .empty := by
  decide

/-- A countdown that covers a CPU PLL with a zero divider, and the master polling `EXPIRED`. -/
def stuck : State :=
  { expiring with
    pllBase := cold.pllBase.set .cpu { divm := 0, divn := 600, divp := 0, enable := true, bypass := false }
    tmrSettle := { SettleSet.empty with pll := .ofFn fun p => p == .cpu }
    master := { cold.master with prog := [pollOp .tmrSts 1 1] } }

/-- The stall returns, or the hypotheses of the hang hold (`ring_fair` meets the one about the schedule). -/
theorem witness_ExpiryWaitsForSettle_zero :
    (field (fun t => t.tmrExpired) (step (returning stuck)) = some true ∧ clockFault (returning stuck) = none) ∧
      stuck.cfg.map = .spec ∧ stuck.cfg.zeroDividerStall = .hangs ∧ stuck.ended = false ∧ clockFault stuck = none ∧
      stuck.tmrExpired = false ∧ stuck.master.prog.head? = some (.cmd (.poll .tmrSts 1 1)) ∧
      stuck.tmrSettle.pll.get .cpu = true ∧ pllSettling stuck .cpu = true ∧ (stuck.pllBase.get .cpu).divm = 0 := by
  decide

theorem witness_AgentsWriteNoRegister :
    field (fun t => t.tmrExpired) (agentStep .timer expiring) = some true := by
  decide

/-- The invariant holds of a state that issues a write, and its step leads on to a different state. -/
theorem witness_StepKeepsInvariant :
    (oneWord cold 0x1000100200000003E).Inv ∧
      field (fun t => t.clkEnb) (step (oneWord cold 0x1000100200000003E)) = some (gates 0x3E) := by
  refine ⟨?_, by decide⟩
  constructor
  · decide
  · intro p
    cases p <;> decide
  · decide
  · intro c
    cases c <;> decide
  · intro i
    cases i <;> decide
  · decide
  · decide
  · intro c
    cases c <;> decide
  · intro p
    cases p <;> decide
  · decide
  · decide
  · decide

theorem witness_InputsConstant :
    field State.cfg (step (oneWord cold 0x1000100200000003E)) = some Config.default := by
  decide

/-- At the first and the last secondary core. -/
theorem witness_SecondaryCoresStayHeld :
    lineAsserted gateOpen .p .cx 1 = true ∧ lineAsserted gateOpen .p .wd 3 = true ∧ secondaryHeld gateOpen .p = true ∧
      field (fun t => secondaryHeld t .p) (step (oneWord gateOpen 0x10001004400010111)) = some true := by
  decide

theorem witness_CoreReleaseIsOrdered :
    lineAsserted gateOpen .p .cpu 0 = true ∧ lineAsserted gateOpen .p .cx 0 = true ∧
      field (fun t => (lineAsserted t .p .cpu 0, lineAsserted t .p .cx 0, lineAsserted t .p .wd 0))
        (step (oneWord gateOpen 0x10001004400010111)) = some (false, false, true) ∧
      field (fun t => lineAsserted t .p .wd 0) (step (oneWord gateOpen 0x10001004400001000)) = some false := by
  decide

theorem witness_GateOpensInOrder :
    cpuGateOpen poweredP = false ∧
      field cpuGateOpen (step (oneWord poweredP 0x1000100200000003F)) = some true := by
  decide

/-- A read with `LOCK = 1`; a clean output lost by a write that disables the PLL. -/
theorem witness_PllOutputKept :
    sysUp.cfg.map = .spec ∧ exec (.rd (.pllBase .sys)) sysUp = .next (sysUp.gotRead (.pllBase .sys) 0x4811B00C) ∧
      (0x4811B00C : Word).getLsbD 27 = true ∧ pllOutOk sysUp .sys = true ∧ (sysUp.pllBase.get .sys).enable = true ∧
      sysUp.pllStable.get .sys = true ∧
      field (fun t => pllOutOk t .sys) (step (oneWord sysUp 0x1000100800011B00C)) = some false :=
  ⟨by decide, rfl, by decide, by decide, by decide, by decide, by decide⟩

theorem witness_HistoryGrows :
    field (fun t => t.history.length) (step (oneWord cold 0x00001008000000000)) = some 1 ∧
      field (fun t => t.history.length) (step cold) = some 0 := by
  decide

theorem witness_SequencerNeverGoesBack :
    field (fun t => t.master.seq)
      (step { cold with master := { cold.master with prog := .ctl .advance :: postOp 0x61 :: [] } }) =
      some .clusterSelected := by
  decide

theorem witness_FirstFetchOnce :
    running.entry = none ∧
      field State.entry (step { running with sched := [.agent .appCpu], resetVector := 0x80108000 }) =
        some (some 0x80108000) ∧
      field State.entry (step { running with sched := [.agent .appCpu], entry := some 4 }) = some (some 4) := by
  decide

theorem witness_PollReadsUntilWanted :
    let s : State := cold.load [pollOp .pwrgateStatus 1 1]
    s.master.prog = .cmd (.poll .pwrgateStatus 1 1) :: [] ∧
      got (exec (.rd .pwrgateStatus) (s.load [])) = some 0 ∧
      got (exec (.rd .pwrgateStatus) (State.load { cold with pwrStatus := parts 1 } [])) = some 1 := by
  decide

theorem witness_PowerUpProcedure :
    poweredP.cfg.map = .spec ∧ RegMap.spec.partId = { rail := 0, nonCpuP := 1, cpu0P := 2, nonCpuE := 3, cpuE := 4 } ∧
      ((poweredP.load (powerUp .spec .rail)).master.prog = powerUp poweredP.cfg.map .rail ++ [] ∧
        isPowered (poweredP.load (powerUp .spec .rail)) .rail = true) ∧
      ((cold.load (powerUp .spec .cpuE)).master.prog = powerUp cold.cfg.map .cpuE ++ [] ∧
        isPowered (cold.load (powerUp .spec .cpuE)) .cpuE = false) ∧
      (cold.load [pollOp .pwrgateStatus 16 16]).master.prog =
        .cmd (.poll .pwrgateStatus (BitVec.ofNat 32 (2 ^ 4)) (BitVec.ofNat 32 (2 ^ 4))) :: [] := by
  decide

theorem witness_CpuGateProcedures :
    gateOpen.cfg.map = .spec ∧
      (gateOpen.load (disableCpuClockGate .spec)).master.prog = disableCpuClockGate gateOpen.cfg.map ++ [] ∧
      (poweredP.load (enableCpuClockGate .spec)).master.prog = enableCpuClockGate poweredP.cfg.map ++ [] := by
  decide

/-- With a vector and without one. -/
theorem witness_HandOff :
    let s : State :=
      { cold with master := { cold.master with seq := .resetReleased, prog := transition5 .default } }
    s.master.prog = transition5 s.cfg ++ [] ∧ s.master.seq = .resetReleased ∧ clockFault s = none ∧
      s.cfg.posts = .spec ∧
      s.master.resetVector = 0 ∧
      ({ s with master := { s.master with resetVector := 0x80108000 } } : State).master.resetVector ≠ 0 := by
  decide

theorem witness_StallArithmetic :
    Config.default.map = .spec ∧ Config.default.timerOk = true ∧
      Config.timerOk { Config.default with tmrMax := 2 } = true := by
  decide

/-- The state elements after an earlier stage that has programmed the system PLL and moved the system clock onto it,
with the PLL in bypass or not; that stage has filled in the boot record. -/
def warmElements (bypass : Bool) : HwState :=
  { HwState.cold0 with
    sysSrc := 1
    pllBase :=
      HwState.cold0.pllBase.set .sys { divm := 12, divn := 432, divp := 1, enable := true, bypass := bypass }
    pllStable := HwState.cold0.pllStable.set .sys true
    bir := { HwState.cold0.bir with sdramInit := true } }

/-- A reset state with those elements, of a chip that tests the bypass of the system PLL. -/
def warm (bypass : Bool) : State :=
  State.powerOn
    { Config.default with
      resetState := warmElements bypass
      checkBypass := { Config.default.checkBypass with sys := true } }

theorem warm_inv (b : Bool) : (warm b).Inv where
  clocks := by cases b <;> decide
  stable p := by cases b <;> cases p <;> decide
  repair := by cases b <;> decide
  nonCpu c := by cases b <;> cases c <;> decide
  clamps i := by cases b <;> cases i <;> decide
  timer := by cases b <;> decide
  stopped := by cases b <;> decide
  lines c := by cases b <;> cases c <;> decide
  taps p := by cases b <;> cases p <;> decide
  cluster := by cases b <;> decide
  span := by cases b <;> decide
  fields := by cases b <;> decide

theorem warm_resetOk (b : Bool) : (warm b).ResetOk where
  config := by cases b <;> decide
  elements := by cases b <;> decide
  inv := warm_inv b
  crystal f h := ⟨osc12MHz, by cases b <;> decide, Option.some.inj h⟩
  toggle i := by cases b <;> cases i <;> decide
  settle := by cases b <;> decide
  status := by cases b <;> decide
  marks := by cases b <;> decide

theorem warm_preBoot (b : Bool) : (warm b).PreBoot where
  idle := by cases b <;> decide
  settled p := by cases b <;> cases p <;> decide
  source := by cases b <;> decide
  gate := by cases b <;> decide
  fuses := by cases b <;> decide
  sources := by cases b <;> decide
  tables := by cases b <;> decide
  bounds := by cases b <;> decide
  dual := by cases b <;> decide
  usable := by cases b <;> decide

/-- Every agent and the master in turn. -/
def ring (n : Nat) : Move :=
  ([.master, .agent (.pll .sys), .agent (.pll .cpu), .agent (.pll .usb), .agent .freqDet, .agent .powerGate,
    .agent (.clamp .rail), .agent (.clamp .nonCpuP), .agent (.clamp .cpu0P), .agent (.clamp .nonCpuE),
    .agent (.clamp .cpuE), .agent .ramRepair, .agent (.resetSync .p), .agent (.resetSync .e), .agent .timer,
    .agent .appCpu] : List Move).getD (n % 16) .master

theorem ring_visits (k : Nat) (m : Move) (h : ring k = m) (n : Nat) : ∃ j, n ≤ j ∧ ring j = m :=
  ⟨n * 16 + k, by omega, by rw [← h, ring, ring, show (n * 16 + k) % 16 = k % 16 by omega]⟩

theorem ring_fair (m : Move) : ∀ n, ∃ j, n ≤ j ∧ ring j = m := by
  match m with
  | .master => exact ring_visits 0 _ rfl
  | .agent (.pll .sys) => exact ring_visits 1 _ rfl
  | .agent (.pll .cpu) => exact ring_visits 2 _ rfl
  | .agent (.pll .usb) => exact ring_visits 3 _ rfl
  | .agent .freqDet => exact ring_visits 4 _ rfl
  | .agent .powerGate => exact ring_visits 5 _ rfl
  | .agent (.clamp .rail) => exact ring_visits 6 _ rfl
  | .agent (.clamp .nonCpuP) => exact ring_visits 7 _ rfl
  | .agent (.clamp .cpu0P) => exact ring_visits 8 _ rfl
  | .agent (.clamp .nonCpuE) => exact ring_visits 9 _ rfl
  | .agent (.clamp .cpuE) => exact ring_visits 10 _ rfl
  | .agent .ramRepair => exact ring_visits 11 _ rfl
  | .agent (.resetSync .p) => exact ring_visits 12 _ rfl
  | .agent (.resetSync .e) => exact ring_visits 13 _ rfl
  | .agent .timer => exact ring_visits 14 _ rfl
  | .agent .appCpu => exact ring_visits 15 _ rfl

/-- The rule's hypotheses at a state of the corner. -/
theorem witness_EndStateRule :
    (warm true).ResetOk ∧ (warm true).PreBoot ∧ (warm true).bootCluster = .performance ∧
      (runBootSequencer 0x80108000 (warm true)).isSome = true ∧ MasterRuns ring ∧
      (∀ (t : State) (a : HwAgent), a ≠ .appCpu → Fair ring t a) ∧ (warm true).BypassedSource :=
  ⟨warm_resetOk _, warm_preBoot _, by decide, by decide, ring_fair _, fun _ _ _ n _ => ring_fair _ n, by decide,
    by decide, by decide, by decide, .inl (by decide)⟩

/-- The hypotheses at a state outside it. -/
theorem witness_EndStateConsistent :
    (warm false).ResetOk ∧ (warm false).PreBoot ∧ ¬(warm false).BypassedSource ∧ ¬(warm false).StuckCountdown ∧
      (warm false).bootCluster = .performance ∧ (runBootSequencer 0x80108000 (warm false)).isSome = true ∧
      MasterRuns ring ∧ ∀ (t : State) (a : HwAgent), a ≠ .appCpu → Fair ring t a :=
  ⟨warm_resetOk _, warm_preBoot _, fun h => absurd h.2.2.1 (by decide), fun h => absurd h.2.1 (by decide), by decide,
    by decide, ring_fair _, fun _ _ _ n _ => ring_fair _ n⟩

/-- The stalls of rules R281 and R292, and the second corner: a USB PLL with `DIVM` 0 and a bound of 10. -/
theorem test_stuck_countdown :
    bootStalls cold = [10] ∧
      bootStalls { cold with cfg := { cold.cfg with lockStrategy := .ofFn fun _ => .fixedDelay } } = [10, 300, 300] ∧
      (let s : State :=
        { cold with
          cfg := { cold.cfg with pllStabUs := { cold.cfg.pllStabUs with usb := 10 } }
          pllBase := cold.pllBase.set .usb { divm := 0, divn := 1, divp := 0, enable := true, bypass := false } }
       s.StuckCountdown) :=
  ⟨by decide, by decide, by decide, by decide, by decide, 10, by decide, by decide⟩

theorem witness_BootClusterRule : Config.default.map = .spec := by decide

end Sys2Proof.Tests
end

section
/-! PROOFS of the reads of the PLL registers (obligation O13, `spec/40_pll_controller.md`). -/

namespace Sys2Proof.Machine

open Sys2Proof

/-- The opcode bits `T[64:32]` of a read are its register's address: `W` is 0 (rules R100, R101). -/
theorem encodeWord_opcode_of_read {cfg : Config} {i : Instr} (h : i.isWrite = false) :
    (encodeWord cfg i).extractLsb' 32 33 = (i.reg.addr cfg).setWidth 33 := by
  rw [encodeWord, BitVec.extractLsb'_append_eq_left, h, BitVec.setWidth_eq_append (by decide)]
  rfl

/-- A read of a register the configuration does not have is refused (rule R88). -/
theorem readReg_of_absent {r : Reg} {s : State} {v : Word} (h : r.present s.cfg = false) :
    readReg r v s = .refused (.absentRegister r) := by
  simp [readReg, ifPresent, h, refuse]

/-! The PLL rows of rule R103, as functions of the PLL. -/

/-- `RD_PLL_BASE_p`. -/
def rdPllBase : PllId → Instr
  | .sys => .rdPllBaseSys
  | .cpu => .rdPllBaseCpu
  | .usb => .rdPllBaseUsb

/-- `RD_PLL_MISC_p`. -/
def rdPllMisc : PllId → Instr
  | .sys => .rdPllMiscSys
  | .cpu => .rdPllMiscCpu
  | .usb => .rdPllMiscUsb

/-- The `p` of `0x080 + 0x10·p`. -/
def pllIndex : PllId → Word
  | .sys => 0
  | .cpu => 1
  | .usb => 2

theorem exec_rdPllBase (p : PllId) (s : State) : exec (rdPllBase p) s = readPllBase p s := by cases p <;> rfl
theorem exec_rdPllMisc (p : PllId) (s : State) : exec (rdPllMisc p) s = readPllMisc p s := by cases p <;> rfl
@[simp] theorem rdPllBase_isWrite (p : PllId) : (rdPllBase p).isWrite = false := by cases p <;> rfl
@[simp] theorem rdPllMisc_isWrite (p : PllId) : (rdPllMisc p).isWrite = false := by cases p <;> rfl
@[simp] theorem rdPllBase_reg (p : PllId) : (rdPllBase p).reg = .pllBase p := by cases p <;> rfl
@[simp] theorem rdPllMisc_reg (p : PllId) : (rdPllMisc p).reg = .pllMisc p := by cases p <;> rfl

theorem pllBase_addr {cfg : Config} (h : cfg.map = .spec) (p : PllId) :
    (Reg.pllBase p).addr cfg = cfg.base.car + 0x080 + 0x10 * pllIndex p := by
  have offset : BitVec.ofNat 32 (RegMap.spec.offset.pllBase.get p) = 0x080 + 0x10 * pllIndex p := by
    cases p <;> rfl
  rw [BitVec.add_assoc, ← offset, ← h]
  rfl

theorem pllMisc_addr {cfg : Config} (h : cfg.map = .spec) (p : PllId) :
    (Reg.pllMisc p).addr cfg = cfg.base.car + 0x084 + 0x10 * pllIndex p := by
  have offset : BitVec.ofNat 32 (RegMap.spec.offset.pllMisc.get p) = 0x084 + 0x10 * pllIndex p := by
    cases p <;> rfl
  rw [BitVec.add_assoc, ← offset, ← h]
  rfl

/-- The layout of rule R35. -/
theorem pllBaseWord_spec (b : PllBase) (lock : Bool) :
    pllBaseWord .spec b lock =
      (BitVec.ofBool b.bypass ++ BitVec.ofBool b.enable ++ 0#2 ++ BitVec.ofBool lock ++ 0#4 ++ b.divp.setWidth 3 ++
        0#2 ++ b.divn.setWidth 10 ++ 0#3 ++ b.divm.setWidth 5).setWidth 32 := by
  apply BitVec.eq_of_getLsbD_eq
  intro k hk
  simp only [pllBaseWord, divWord, BitVec.getLsbD_or, placeBit_getLsbD _ _ _ hk, putField_getLsbD _ _ _ hk, RegMap.spec,
    BitVec.setWidth_eq, BitVec.getLsbD_append, BitVec.getLsbD_setWidth, BitVec.getLsbD_ofBool, BitVec.getLsbD_zero]
  interval_cases k <;> simp

/-- The layout of rule R36. -/
theorem pllMiscWord_spec (x : PllMisc) :
    pllMiscWord .spec x = (BitVec.ofBool x.lockEnable ++ 0#2 ++ x.setup.setWidth 16).setWidth 32 := by
  apply BitVec.eq_of_getLsbD_eq
  intro k hk
  simp only [pllMiscWord, BitVec.getLsbD_or, placeBit_getLsbD _ _ _ hk, putField_getLsbD _ _ _ hk, RegMap.spec,
    BitVec.getLsbD_append, BitVec.getLsbD_setWidth, BitVec.getLsbD_ofBool, BitVec.getLsbD_zero]
  interval_cases k <;> simp

/-- Settles O13: the rows are one family indexed by the PLL, and the layouts are those of rules R35 and R36. -/
theorem pllReads : Obligations.PllReads := by
  intro s p index base misc hrow hmap
  obtain ⟨rfl, rfl, rfl⟩ : index = pllIndex p ∧ base = rdPllBase p ∧ misc = rdPllMisc p := by
    simp only [List.mem_cons, Prod.mk.injEq, List.not_mem_nil, or_false] at hrow
    obtain ⟨rfl, rfl, rfl, rfl⟩ | ⟨rfl, rfl, rfl, rfl⟩ | ⟨rfl, rfl, rfl, rfl⟩ := hrow <;> exact ⟨rfl, rfl, rfl⟩
  rw [exec_rdPllBase, exec_rdPllMisc, encodeWord_opcode_of_read (rdPllBase_isWrite p),
    encodeWord_opcode_of_read (rdPllMisc_isWrite p), rdPllBase_reg, rdPllMisc_reg, pllBase_addr hmap, pllMisc_addr hmap]
  refine ⟨rfl, rfl, fun absent => ⟨readReg_of_absent absent, readReg_of_absent absent⟩, fun present => ⟨?_, ?_⟩⟩
  · exact readReg_of_present rfl present (by rw [hmap, pllBaseWord_spec]; rfl)
  · exact readReg_of_present rfl present (by rw [hmap, pllMiscWord_spec])

end Sys2Proof.Machine
end

section
/-! PROOFS of the writes of the device reset register (obligation O28, `spec/43_cluster_reset_sequencer.md`). -/

namespace Sys2Proof.Machine

open Sys2Proof

/-- The opcode bits `T[64:32]` of a write are its register's address under `W` = 1 (rules R100, R101). -/
theorem encodeWord_opcode_of_write {cfg : Config} {i : Instr} (h : i.isWrite = true) :
    (encodeWord cfg i).extractLsb' 32 33 = (i.reg.addr cfg).setWidth 33 ||| (1#33 <<< 32) := by
  rw [encodeWord, BitVec.extractLsb'_append_eq_left, h, BitVec.append_def, BitVec.or_comm]
  rfl

theorem rstDevSet_addr {cfg : Config} (h : cfg.map = .spec) : Reg.rstDevSet.addr cfg = cfg.base.car + 0x030 := by
  rw [Reg.addr, h]
  rfl

/-! What `RST_DEV | DATA` holds. -/

@[simp] theorem setGates_get (m : RegMap) (d : Word) (x : PerGate Bool) (g : Gate) :
    (setGates m d x).get g = (x.get g || d.getLsbD (m.gate.get g)) := by
  rw [setGates, PerGate.get_ofFn]

/-- A line the word names is asserted. -/
theorem setGates_get_of_named {m : RegMap} {d : Word} {g : Gate} (x : PerGate Bool)
    (h : d.getLsbD (m.gate.get g) = true) : (setGates m d x).get g = true := by
  rw [setGates_get, h, Bool.or_true]

/-- A word that names no line leaves the register as it was. -/
theorem setGates_of_unnamed {m : RegMap} {d : Word} {x : PerGate Bool}
    (h : ∀ g, d.getLsbD (m.gate.get g) = false) : setGates m d x = x :=
  PerGate.ext_get fun g => by rw [setGates_get, h, Bool.or_false]

/-- The lines of rule R31 are the low six bits of the word. -/
theorem gate_spec_lt (g : Gate) : RegMap.spec.gate.get g < 6 := by cases g <;> decide

/-- Zeros in `DATA[5:0]` name no line of rule R31. -/
theorem gate_unnamed_of_zero {d : Word} (h : d.extractLsb' 0 6 = 0) (g : Gate) :
    d.getLsbD (RegMap.spec.gate.get g) = false := by
  have bit := congrArg (·.getLsbD (RegMap.spec.gate.get g)) h
  simpa [BitVec.getLsbD_extractLsb', gate_spec_lt g] using bit

/-! What an asserted device reset line stops. -/

/-- A peripheral held in reset is not usable (rule R59). -/
theorem periphUsable_of_reset {s : State} {x : Gate} (h : s.rstDev.get x = true) : periphUsable s x = false := by
  rw [periphUsable, h, Bool.not_true, Bool.and_false]

/-- A timer held in reset does not count down to its expiry (rule R247). -/
theorem agentEnabled_timer_of_reset {s : State} (h : s.rstDev.get .timer = true) : agentEnabled s .timer = false := by
  rw [agentEnabled, periphUsable_of_reset h, Bool.and_false, Bool.false_and]

/-- No core 0 runs while the whole-complex line is asserted (rule R58). -/
theorem core0Runs_of_reset {s : State} (h : s.rstDev.get .cpu = true) (c : Cluster) : core0Runs s c = false := by
  have line : s.rstDev.cpu = true := h
  simp [core0Runs, line]

/-- Asserting device resets is always legal: only the clock check, which looks at no reset line, could stop the write
(rules R182, R217). -/
theorem exec_wrRstDevSet {s : State} (d : Word) (h : clockFault s = none) :
    exec (.wrRstDevSet d) s = .next (s.stored .rstDevSet d) := by
  have clocks : clockFault (storesOf d s .rstDevSet) = none :=
    (clockFault_congr rfl rfl rfl rfl rfl rfl rfl).trans h
  exact writeReg_next.2 ⟨rfl, clocks, rfl⟩

/-- Settles O28: the write always completes, and what it leaves stopped follows from the line it asserts. -/
theorem deviceResetSet : Obligations.DeviceResetSet := by
  intro s d hmap
  refine ⟨?_, fun hclk => ⟨s.stored .rstDevSet d, exec_wrRstDevSet d hclk, ?_, ?_, ?_, ?_⟩⟩
  · exact (encodeWord_opcode_of_write rfl).trans (by rw [← rstDevSet_addr hmap]; rfl)
  · rw [State.stored, storesOf, hmap]
    rfl
  · intro unnamed
    exact setGates_of_unnamed (by rw [hmap]; exact gate_unnamed_of_zero unnamed)
  · intro named
    exact agentEnabled_timer_of_reset (setGates_get_of_named _ (by rw [hmap]; exact named))
  · intro named
    exact core0Runs_of_reset (setGates_get_of_named _ (by rw [hmap]; exact named))

end Sys2Proof.Machine
end

section
/-! PROOFS of the reads of the clock registers (obligation O11, `spec/41_clock_tree_mux.md`,
`spec/44_support_blocks.md`). -/

namespace Sys2Proof.Machine

open Sys2Proof

/-- The opcode bits `T[64:32]` of a read in the `CAR` aperture, under the offsets of rule R103. -/
theorem encodeWord_opcode_of_carRead {cfg : Config} {i : Instr} (hmap : cfg.map = .spec) (hread : i.isWrite = false)
    (hcar : i.reg.aperture = .car) :
    (encodeWord cfg i).extractLsb' 32 33 = (cfg.base.car + BitVec.ofNat 32 (i.reg.offset .spec)).setWidth 33 := by
  rw [encodeWord_opcode_of_read hread, Reg.addr, hcar, hmap]
  rfl

/-- The rows of rule R103 for the plain clock registers are reads of `CAR` registers at these offsets. -/
theorem clockRead_rows :
    ∀ row ∈ [(Instr.rdOscCtrl, (0x000 : Word)), (.rdSclkBurstPolicy, 0x010), (.rdSclkDivider, 0x014),
        (.rdCclkBurstPolicy, 0x018), (.rdCclkDivider, 0x01C), (.rdClkEnb, 0x020)],
      row.1.isWrite = false ∧ row.1.reg.aperture = .car ∧ BitVec.ofNat 32 (row.1.reg.offset .spec) = row.2 := by
  decide

/-- A field at the bottom of its register is read as it is. -/
theorem putField_lo_zero (width : Nat) (x : Word) : putField ⟨0, width⟩ x = (x.setWidth width).setWidth 32 :=
  BitVec.shiftLeft_zero _

/-- The layout of `OSC_CTRL` (rule R253). -/
theorem oscCtrlWord_spec (refDiv freq : Word) :
    putField RegMap.spec.place.pllRefDiv refDiv ||| putField RegMap.spec.place.oscFreq freq =
      (refDiv.setWidth 2 ++ freq.setWidth 4).setWidth 32 := by
  apply BitVec.eq_of_getLsbD_eq
  intro k hk
  simp only [BitVec.getLsbD_or, putField_getLsbD _ _ _ hk, RegMap.spec, BitVec.getLsbD_append, BitVec.getLsbD_setWidth]
  interval_cases k <;> simp

/-- The layout of a super-clock divider with the spec's places: `(ENB << 31) | (DIVIDEND << 8) | DIVISOR` (rules R173,
R177). -/
theorem dividerWord_spec (x : Divider) :
    dividerWord { divisor := ⟨0, 8⟩, dividend := ⟨8, 8⟩, enb := 31 } x =
      (BitVec.ofBool x.enb ++ 0#15 ++ x.dividend.setWidth 8 ++ x.divisor.setWidth 8).setWidth 32 := by
  apply BitVec.eq_of_getLsbD_eq
  intro k hk
  simp only [dividerWord, BitVec.getLsbD_or, placeBit_getLsbD _ _ _ hk, putField_getLsbD _ _ _ hk, BitVec.setWidth_eq,
    BitVec.getLsbD_append, BitVec.getLsbD_setWidth, BitVec.getLsbD_ofBool, BitVec.getLsbD_zero]
  interval_cases k <;> simp

/-- The layout of the gates in `CLK_ENB` and of the lines in `RST_DEV` (rules R30, R31). -/
theorem gatesWord_spec (x : PerGate Bool) :
    gatesWord .spec x =
      (BitVec.ofBool x.dma1 ++ BitVec.ofBool x.dma0 ++ BitVec.ofBool x.memc ++ BitVec.ofBool x.gpio ++
        BitVec.ofBool x.timer ++ BitVec.ofBool x.cpu).setWidth 32 := by
  apply BitVec.eq_of_getLsbD_eq
  intro k hk
  simp only [gatesWord, Gate.all, List.foldr, BitVec.getLsbD_or, placeBit_getLsbD _ _ _ hk, RegMap.spec, PerGate.get,
    BitVec.getLsbD_append, BitVec.getLsbD_setWidth, BitVec.getLsbD_ofBool]
  interval_cases k <;> simp

/-- Settles O11: the clock registers are always present, so each read completes with the word of its layout. -/
theorem clockReads : Obligations.ClockReads := by
  intro s hmap
  refine ⟨fun i offset hrow => ?_, ?_, ?_, ?_, ?_, ?_, ?_⟩
  · obtain ⟨hread, hcar, hoffset⟩ := clockRead_rows _ hrow
    rw [encodeWord_opcode_of_carRead hmap hread hcar, hoffset]
  · exact readReg_of_present rfl rfl (by rw [hmap, oscCtrlWord_spec])
  · exact readReg_of_present rfl rfl (by rw [hmap]; exact putField_lo_zero 4 _)
  · exact readReg_of_present rfl rfl (by rw [hmap]; exact dividerWord_spec _)
  · exact readReg_of_present rfl rfl (by rw [hmap]; exact putField_lo_zero 4 _)
  · exact readReg_of_present rfl rfl (by rw [hmap]; exact dividerWord_spec _)
  · exact readReg_of_present rfl rfl (by rw [hmap, gatesWord_spec])

end Sys2Proof.Machine
end

section
/-! PROOFS of the encoding and of the bus (obligations O1 to O5, `spec/20_memory.md`, `spec/30_encoding.md`). -/

namespace Sys2Proof

/-! The three parts of a command's transaction word (rule R100). -/

theorem encodeWord_write (cfg : Config) (i : Instr) : (encodeWord cfg i).getLsbD 64 = i.isWrite := by
  rw [encodeWord_getLsbD]
  simp

theorem encodeWord_addr (cfg : Config) (i : Instr) :
    (encodeWord cfg i).extractLsb' 32 32 = i.reg.addr cfg := by
  apply BitVec.eq_of_getLsbD_eq
  intro k hk
  simp [encodeWord_getLsbD, hk, show 32 + k < 64 by omega]

theorem encodeWord_data (cfg : Config) (i : Instr) : (encodeWord cfg i).extractLsb' 0 32 = i.data := by
  apply BitVec.eq_of_getLsbD_eq
  intro k hk
  simp [encodeWord_getLsbD, hk]

/-- A transaction word is its three parts. -/
theorem word_of_parts {t u : BitVec 65} (hw : t.getLsbD 64 = u.getLsbD 64)
    (ha : t.extractLsb' 32 32 = u.extractLsb' 32 32) (hd : t.extractLsb' 0 32 = u.extractLsb' 0 32) : t = u := by
  apply BitVec.eq_of_getLsbD_eq
  intro k hk
  by_cases low : k < 32
  · simpa [BitVec.getLsbD_extractLsb', low] using congrArg (·.getLsbD k) hd
  · by_cases mid : k < 64
    · have bit := congrArg (·.getLsbD (k - 32)) ha
      simpa [BitVec.getLsbD_extractLsb', show k - 32 < 32 by omega, show 32 + (k - 32) = k by omega] using bit
    · rwa [show k = 64 by omega]

/-- A command is the one its parts name (rule R108, step 4). -/
theorem ofParts_self (i : Instr) : Instr.ofParts i.isWrite i.reg i.data = i := by cases i <;> rfl

/-- The parts a command is made of are its parts, but for the `DATA` of a read. -/
theorem ofParts_parts (write : Bool) (r : Reg) (d : Word) :
    (Instr.ofParts write r d).isWrite = write ∧ (Instr.ofParts write r d).reg = r ∧
      (write = true → (Instr.ofParts write r d).data = d) := by
  cases write
  · obtain ⟨hw, hr, -⟩ := Machine.rd_parts r
    exact ⟨hw, hr, by simp⟩
  · obtain ⟨hw, hr, hd⟩ := Machine.wr_parts r d
    exact ⟨hw, hr, fun _ => hd⟩

theorem Aperture.mem_all (a : Aperture) : a ∈ Aperture.all := by cases a <;> decide

/-- The address lies in the aperture. -/
def InAperture (cfg : Config) (a : Aperture) (addr : Word) : Prop :=
  (cfg.base.get a).toNat ≤ addr.toNat ∧ addr.toNat < (cfg.base.get a).toNat + cfg.map.apertureBytes

/-- What well-formed bases give (rules R62, R102). -/
theorem bases_of_basesOk {cfg : Config} (h : cfg.basesOk = true) (a : Aperture) :
    (cfg.base.get a).toNat % 4 = 0 ∧ (cfg.base.get a).toNat + cfg.map.apertureBytes ≤ 2 ^ 32 ∧
      ∀ b, a = b ∨ cfg.apart a b = true := by
  have row := List.all_eq_true.1 h a a.mem_all
  simp only [Bool.and_eq_true, beq_iff_eq, decide_eq_true_eq] at row
  obtain ⟨⟨aligned, inside⟩, apart⟩ := row
  exact ⟨aligned, inside, fun b => by simpa using List.all_eq_true.1 apart b b.mem_all⟩

/-- No address lies in two apertures (rule R102). -/
theorem inAperture_unique {cfg : Config} (h : cfg.basesOk = true) {a b : Aperture} {addr : Word}
    (ha : InAperture cfg a addr) (hb : InAperture cfg b addr) : a = b := by
  obtain ⟨la, ua⟩ := ha
  obtain ⟨lb, ub⟩ := hb
  refine ((bases_of_basesOk h a).2.2 b).resolve_right fun apart => ?_
  simp only [Config.apart, Bool.or_eq_true, decide_eq_true_eq] at apart
  omega

/-- The aperture found for an address is one that holds it. -/
theorem inAperture_of_apertureOf {cfg : Config} {a : Aperture} {addr : Word} (h : apertureOf cfg addr = some a) :
    InAperture cfg a addr := by
  simpa [InAperture] using List.find?_some h

/-- The aperture that holds an address is found (rule R108, step 2). -/
theorem apertureOf_of_inAperture {cfg : Config} (h : cfg.basesOk = true) {a : Aperture} {addr : Word}
    (ha : InAperture cfg a addr) : apertureOf cfg addr = some a := by
  cases hf : apertureOf cfg addr with
  | none => simpa [ha.1, ha.2] using List.find?_eq_none.1 hf a a.mem_all
  | some b => rw [inAperture_unique h (inAperture_of_apertureOf hf) ha]

theorem apertureOf_of_outside {cfg : Config} {addr : Word} (h : ∀ a, ¬InAperture cfg a addr) :
    apertureOf cfg addr = none := by
  cases hf : apertureOf cfg addr with
  | none => rfl
  | some a => exact absurd (inAperture_of_apertureOf hf) (h a)

/-- A register's address is its offset above its base, with no wrap around. -/
theorem addr_toNat {cfg : Config} (hb : cfg.basesOk = true) (ho : cfg.map.offsetsOk = true) (r : Reg) :
    (r.addr cfg).toNat = (cfg.base.get r.aperture).toNat + r.offset cfg.map := by
  obtain ⟨-, inside, -⟩ := bases_of_basesOk hb r.aperture
  obtain ⟨-, below, -⟩ := offset_of_offsetsOk ho r
  rw [Reg.addr, BitVec.toNat_add, BitVec.toNat_ofNat]
  omega

/-- The command an aligned address inside an aperture names (rule R108). -/
theorem decodeAccess_of_inAperture {cfg : Config} (h : cfg.basesOk = true) {a : Aperture} {addr : Word}
    (aligned : addr.toNat % 4 = 0) (ha : InAperture cfg a addr) (write : Bool) (data : Word) :
    decodeAccess cfg write addr data =
      (regAt cfg.map a (addr.toNat - (cfg.base.get a).toNat)).elim (.error .noRegister)
        fun r => .ok (.ofParts write r data) := by
  unfold decodeAccess
  rw [if_neg (by omega), apertureOf_of_inAperture h ha]
  show (match regAt cfg.map a (addr.toNat - (cfg.base.get a).toNat) with | none => _ | some r => _) = _
  cases regAt cfg.map a (addr.toNat - (cfg.base.get a).toNat) <;> rfl

/-- An access to a register's address names that register. -/
theorem decodeAccess_addr {cfg : Config} (hb : cfg.basesOk = true) (ho : cfg.map.offsetsOk = true) (write : Bool)
    (r : Reg) (data : Word) : decodeAccess cfg write (r.addr cfg) data = .ok (.ofParts write r data) := by
  have haddr := addr_toNat hb ho r
  obtain ⟨aligned, -, -⟩ := bases_of_basesOk hb r.aperture
  obtain ⟨step, below, -⟩ := offset_of_offsetsOk ho r
  rw [decodeAccess_of_inAperture hb (by omega) (a := r.aperture) ⟨by omega, by omega⟩, haddr, Nat.add_sub_cancel_left,
    regAt_offset ho, Option.elim_some]

/-- What an access that names a command says of it. -/
theorem decodeAccess_ok {cfg : Config} {write : Bool} {addr data : Word} {i : Instr}
    (h : decodeAccess cfg write addr data = .ok i) : ∃ r, i = .ofParts write r data ∧ r.addr cfg = addr := by
  unfold decodeAccess at h
  split at h
  · cases h
  · split at h
    · cases h
    · rename_i ap hap
      split at h
      · cases h
      · rename_i r hr
        obtain ⟨rfl, offset⟩ := regAt_eq_some hr
        obtain ⟨low, -⟩ := inAperture_of_apertureOf hap
        refine ⟨r, (Except.ok.inj h).symm, ?_⟩
        apply BitVec.eq_of_toNat_eq
        rw [Reg.addr, offset, BitVec.toNat_add, BitVec.toNat_ofNat]
        have := addr.isLt
        omega

/-- Settles O1: the decoder takes the word's three parts, and each register is alone at its address. -/
theorem decodeOfEncode : Obligations.DecodeOfEncode := by
  intro cfg i hb ho
  rw [encode, wordBytes, decode_bytesOfNat, decodeWord, encodeWord_write, encodeWord_addr, encodeWord_data,
    decodeAccess_addr hb ho, ofParts_self]

/-- Settles O2: what a word decodes to has its `W` and its address, and a write its `DATA`. -/
theorem encodeOfDecode : Obligations.EncodeOfDecode := by
  intro cfg t i h
  obtain ⟨r, rfl, haddr⟩ := decodeAccess_ok h
  obtain ⟨hw, hr, hd⟩ := ofParts_parts (t.getLsbD 64) r (t.extractLsb' 0 32)
  refine ⟨fun write => word_of_parts ?_ ?_ ?_, fun _ => ?_⟩
  · rw [encodeWord_write, hw]
  · rw [encodeWord_addr, hr, haddr]
  · rw [encodeWord_data, hd (hw.symm.trans write)]
  · apply BitVec.eq_of_getLsbD_eq
    intro k hk
    simp only [BitVec.getLsbD_extractLsb', hk, decide_true, Bool.true_and]
    by_cases low : k < 32
    · have bit := congrArg (·.getLsbD k) haddr
      simp only [BitVec.getLsbD_extractLsb', low, decide_true, Bool.true_and] at bit
      rw [encodeWord_getLsbD, hr, if_neg (by omega), if_pos (by omega), Nat.add_sub_cancel_left, bit]
    · rw [show 32 + k = 64 by omega, encodeWord_write, hw]

/-- Settles O3. -/
theorem specWordsDecode : Obligations.SpecWordsDecode := by
  unfold Obligations.SpecWordsDecode
  decide

namespace Machine

/-- An access that names no command is refused (rules R88, R108). -/
theorem busAccess_of_error {s : State} {write : Bool} {addr data : Word} {e : DecodeError}
    (h : decodeAccess s.cfg write addr data = .error e) :
    busAccess 4 write addr data s = .refused (.badTransaction e) := by
  rw [busAccess, if_neg (by decide), h]
  rfl

/-- Settles O4: the alignment check is the decoder's first. -/
theorem misalignedRefused : Obligations.MisalignedRefused := by
  intro s write addr data odd
  have odd' : addr.toNat % 4 ≠ 0 := fun h => odd (BitVec.eq_of_toNat_eq (by simpa [BitVec.extractLsb'_toNat] using h))
  have misaligned (w : Bool) (d : Word) : decodeAccess s.cfg w addr d = .error .misaligned := by
    rw [decodeAccess, if_pos odd']
  refine ⟨busAccess_of_error (misaligned _ _), fun left => ?_, fun t ht => ?_⟩
  · rw [busAccess_of_error (misaligned _ _), mark_refused]
  · rw [busWord, decode_bytesOfNat, decodeWord, ht, misaligned]
    rfl

/-- The map has no register in the `AHB` and `DBG` apertures (rule R103). -/
theorem aperture_ne_ahb_dbg (r : Reg) : r.aperture ≠ .ahb ∧ r.aperture ≠ .dbg := by
  cases r <;> simp [Reg.aperture]

/-- Settles O5: the aperture that holds an address is found if there is one, and the register at its offset if there
is one. -/
theorem unmappedRefused : Obligations.UnmappedRefused := by
  intro s write addr data hb
  refine ⟨fun width hwidth => ?_, fun aligned outside => ?_, fun aligned a low high empty => ?_⟩
  · rw [busAccess, if_pos hwidth]
    rfl
  · refine busAccess_of_error ?_
    rw [decodeAccess, if_neg (by omega), apertureOf_of_outside fun a ha => by
      obtain ⟨la, ua⟩ := ha
      have := outside a
      omega]
  · have none_there : regAt s.cfg.map a (addr.toNat - (s.cfg.base.get a).toNat) = none := by
      cases hr : regAt s.cfg.map a (addr.toNat - (s.cfg.base.get a).toNat) with
      | none => rfl
      | some r =>
        obtain ⟨rfl, offset⟩ := regAt_eq_some hr
        obtain ⟨no_ahb, no_dbg⟩ := aperture_ne_ahb_dbg r
        exact absurd (show _ = addr.toNat by omega) (((empty.resolve_left no_ahb).resolve_left no_dbg) r rfl)
    refine busAccess_of_error ?_
    rw [decodeAccess_of_inAperture hb aligned ⟨low, high⟩, none_there, Option.elim_none]

end Machine

end Sys2Proof
end

section
/-! SUPPORT. Every write command has one shape: the presence check, the checks its own rule names, its stores, the clock
check; and every read command is the presence check and one read value. -/

namespace Sys2Proof.Machine

open Sys2Proof

/-- What the checks of a write's own rule find, before its stores: a hazard or a refusal, if anything. -/
def ownCheck (d : Word) (s : State) : Reg → Option (Fault ⊕ Refusal)
  | .clkEnb => if gateOpensBadly s d then some (.inl .cpuClockEnabledBadly) else none
  | .rstDevClr => if complexUnpowered s d then some (.inl (.resetReleasedUnpowered .cpuComplex)) else none
  | .rstCmplxClr c =>
    if (releasedLines s c d).meets otherCoresLines then some (.inr .secondaryCoreRelease)
    else (releaseFault s c (releasedLines s c d)).map .inl
  | .pllBase p =>
    if reprogramsEnabled (s.pllBase.get p) (pllBaseOfWord s.cfg.map d) then some (.inl (.pllReprogramWhileEnabled p))
    else none
  | .pllOutA p =>
    (((Reg.pllOutA p).taps s.cfg).find? (tapHazard s p d)).map fun x => .inl (.tapEnabledBeforeBase p x.1)
  | .pllOutB p =>
    (((Reg.pllOutB p).taps s.cfg).find? (tapHazard s p d)).map fun x => .inl (.tapEnabledBeforeBase p x.1)
  | .pwrgateToggle =>
    if startsToggleWord s.cfg.map d then
      match partOfId s.cfg.map (partIdOfWord s.cfg.map d) with
      | none => some (.inr .reservedPartition)
      | some i =>
        if toggleBusy s then some (.inl .toggleWhilePending)
        else if breaksDependency s i then some (.inl (.powerDependency i)) else none
    else none
  | .removeClampingCmd => (unpoweredClamp s d).map fun i => .inl (.clampRemovedUnpowered i)
  | .clusterControl =>
    if clusterOfWord s.cfg.map d == .e && !s.cfg.dualCluster then some (.inr .singleCluster) else none
  | .tmrPtv => if s.cfg.tmrMax < (ptvOfWord s.cfg.map d).toNat then some (.inr .timerSpan) else none
  | .sigVersion => some (.inr (.bootRecordWrite .sigVersion))
  | .sigDataVersion => some (.inr (.bootRecordWrite .sigDataVersion))
  | .birOscFreq => some (.inr (.bootRecordWrite .birOscFreq))
  | .bootType => some (.inr (.bootRecordWrite .bootType))
  | .flags => some (.inr (.bootRecordWrite .flags))
  | _ => none

/-- A write goes on to its stores, unless its checks have found something. -/
def unlessStopped (x : Option (Fault ⊕ Refusal)) (k : Result) : Result :=
  match x with
  | none => k
  | some (.inl h) => raise h
  | some (.inr r) => refuse r

@[simp] theorem unlessStopped_none (k : Result) : unlessStopped none k = k := rfl

@[simp] theorem unlessStopped_hazard (h : Fault) (k : Result) : unlessStopped (some (.inl h)) k = .fault h := rfl

@[simp] theorem unlessStopped_refusal (r : Refusal) (k : Result) : unlessStopped (some (.inr r)) k = .refused r := rfl

/-- Every write command: presence, its own checks, its stores and the clock check (rules R85, R88, R182). -/
theorem exec_wr (d : Word) (r : Reg) (s : State) :
    exec (.wr d r) s = ifPresent r s (unlessStopped (ownCheck d s r) (store r d s)) := by
  cases r with
  | clkEnb =>
    show execWrClkEnb d s = _
    simp only [execWrClkEnb, ownCheck]
    split <;> rfl
  | rstDevClr =>
    show execWrRstDevClr d s = _
    simp only [execWrRstDevClr, ownCheck]
    split <;> rfl
  | rstCmplxClr c =>
    have h : exec (.wr d (.rstCmplxClr c)) s = writeRstCmplxClr c d s := by cases c <;> rfl
    rw [h]
    simp only [writeRstCmplxClr, ownCheck]
    split
    · rfl
    · cases releaseFault s c (releasedLines s c d) <;> rfl
  | pllBase p =>
    have h : exec (.wr d (.pllBase p)) s = writePllBase p d s := by cases p <;> rfl
    rw [h]
    simp only [writePllBase, ownCheck]
    split <;> rfl
  | pllOutA p =>
    have h : exec (.wr d (.pllOutA p)) s = writeTaps (.pllOutA p) p d s := by cases p <;> rfl
    rw [h]
    simp only [writeTaps, ownCheck]
    cases ((Reg.pllOutA p).taps s.cfg).find? (tapHazard s p d) <;> rfl
  | pllOutB p =>
    have h : exec (.wr d (.pllOutB p)) s = writeTaps (.pllOutB p) p d s := by cases p <;> rfl
    rw [h]
    simp only [writeTaps, ownCheck]
    cases ((Reg.pllOutB p).taps s.cfg).find? (tapHazard s p d) <;> rfl
  | pwrgateToggle =>
    show execWrPwrgateToggle d s = _
    simp only [execWrPwrgateToggle, ownCheck]
    cases startsToggleWord s.cfg.map d with
    | false => rfl
    | true =>
      cases partOfId s.cfg.map (partIdOfWord s.cfg.map d) with
      | none => rfl
      | some i =>
        cases toggleBusy s with
        | true => rfl
        | false =>
          simp only [Bool.not_true, Bool.false_eq_true, if_false, if_true]
          split <;> rfl
  | removeClampingCmd =>
    show execWrRemoveClampingCmd d s = _
    simp only [execWrRemoveClampingCmd, ownCheck]
    cases unpoweredClamp s d <;> rfl
  | clusterControl =>
    show execWrClusterControl d s = _
    simp only [execWrClusterControl, ownCheck]
    split <;> rfl
  | tmrPtv =>
    show execWrTmrPtv d s = _
    simp only [execWrTmrPtv, ownCheck]
    split <;> rfl
  | rstCmplxSet c => cases c <;> rfl
  | rstCmplxStatus c => cases c <;> rfl
  | cpuSoftrstCtrl c => cases c <;> rfl
  | pllMisc p => cases p <;> rfl
  | _ => rfl

/-- The refusals and hazards of a write's own rule are no absence and no lost clock. -/
theorem ownCheck_ne (d : Word) (s : State) (r : Reg) :
    (∀ q, ownCheck d s r ≠ some (.inr (.absentRegister q))) ∧ ∀ k, ownCheck d s r ≠ some (.inl (.clockLost k)) := by
  cases r with
  | rstCmplxClr c =>
    simp only [ownCheck, releaseFault]
    repeat' split
    all_goals simp
  | pwrgateToggle =>
    simp only [ownCheck]
    repeat' split
    all_goals simp
  | pllOutA p | pllOutB p | removeClampingCmd => simp [ownCheck]
  | clkEnb | rstDevClr | pllBase p | clusterControl | tmrPtv =>
    simp only [ownCheck]
    split <;> simp
  | _ => simp [ownCheck]

/-- The read value of a register (rule R84). -/
def readValue (s : State) : Reg → Word
  | .oscCtrl => putField s.cfg.map.place.pllRefDiv s.pllRefDiv ||| putField s.cfg.map.place.oscFreq s.oscFreq
  | .oscFreqDet => putField s.cfg.map.place.refClkWin s.refClkWin
  | .oscFreqDetStatus =>
    placeBit s.cfg.map.place.detBusy s.detBusy ||| putField s.cfg.map.place.detCount s.detCount
  | .sclkBurstPolicy => putField s.cfg.map.place.sysSrc s.sysSrc
  | .sclkDivider => dividerWord s.cfg.map.place.sclkDivider s.sclkDivider
  | .cclkBurstPolicy => putField s.cfg.map.place.cpuSrc s.cpuSrc
  | .cclkDivider => dividerWord s.cfg.map.place.cclkDivider s.cclkDivider
  | .clkEnb => gatesWord s.cfg.map s.clkEnb
  | .rstDevSet | .rstDevClr => gatesWord s.cfg.map s.rstDev
  | .rstCmplxSet c | .rstCmplxClr c => linesWord s.cfg.map (s.rstCmplx.get c)
  | .rstCmplxStatus c => placeBit s.cfg.map.place.nonCpuInReset (s.nonCpuInReset.get c)
  | .cpuSoftrstCtrl c => s.softRst.get c
  | .pllBase p => pllBaseWord s.cfg.map (s.pllBase.get p) (lockBit s p)
  | .pllMisc p => pllMiscWord s.cfg.map (s.pllMisc.get p)
  | .pllOutA p => tapsWord ((Reg.pllOutA p).taps s.cfg) (tapAt (s.taps.get p))
  | .pllOutB p => tapsWord ((Reg.pllOutB p).taps s.cfg) (tapAt (s.taps.get p))
  | .resetVector => s.resetVector
  | .pwrgateToggle => placeBit s.cfg.map.place.start (toggleBusy s) ||| putField s.cfg.map.place.partId s.partId
  | .pwrgateStatus => partsWord s.cfg.map s.pwrStatus
  | .removeClampingCmd => 0
  | .clusterControl => placeBit s.cfg.map.place.activeCluster (clusterBit s.cfg.map s.activeCluster)
  | .ramRepair => placeBit s.cfg.map.place.repairSts s.ramSts ||| placeBit s.cfg.map.place.repairReq s.ramReq
  | .bondOut => bondOutWord s
  | .cpuDisable => cpuDisableWord s
  | .tmrPtv => placeBit s.cfg.map.place.tmrEn s.tmrEn ||| putField s.cfg.map.place.ptv s.tmrPtv
  | .tmrSts => placeBit s.cfg.map.place.expired s.tmrExpired
  | .timerusUsecCfg =>
    putField s.cfg.map.place.usecDividend s.usecDividend ||| putField s.cfg.map.place.usecDivisor s.usecDivisor
  | .sigVersion => s.bir.sigVersion
  | .sigDataVersion => s.bir.sigDataVersion
  | .birOscFreq => birOscFreqWord s
  | .bootType => s.bir.bootType
  | .flags => birFlagsWord s

/-- Every read command is a read of its register's read value. -/
theorem exec_rd_value (r : Reg) (s : State) : exec (.rd r) s = readReg r (readValue s r) s := by
  cases r with
  | rstCmplxSet c => cases c <;> rfl
  | rstCmplxClr c => cases c <;> rfl
  | rstCmplxStatus c => cases c <;> rfl
  | cpuSoftrstCtrl c => cases c <;> rfl
  | pllBase p => cases p <;> rfl
  | pllMisc p => cases p <;> rfl
  | pllOutA p => cases p <;> rfl
  | pllOutB p => cases p <;> rfl
  | _ => rfl

/-- A read of a present register completes with its read value. -/
theorem exec_rd_of_present {r : Reg} {s : State} (h : r.present s.cfg = true) :
    exec (.rd r) s = .next (s.gotRead r (readValue s r)) := by
  rw [exec_rd_value, readReg, ifPresent_of_present h]

/-- A command of an absent register is refused, before anything else (rule R88). -/
theorem exec_of_absent {i : Instr} {s : State} (h : i.reg.present s.cfg = false) :
    exec i s = .refused (.absentRegister i.reg) := by
  obtain hi | ⟨d, hi⟩ := instr_cases i
  · rw [hi, exec_rd_value, (rd_parts _).2.1, readReg_of_absent h]
  · rw [hi, exec_wr, (wr_parts _ _).2.1, ifPresent, h]
    rfl

/-- A write of a present register whose own checks pass makes its stores, and the clock check decides. -/
theorem exec_wr_of_unchecked {r : Reg} {d : Word} {s : State} (hp : r.present s.cfg = true)
    (hc : ownCheck d s r = none) : exec (.wr d r) s = store r d s := by
  rw [exec_wr, ifPresent_of_present hp, hc, unlessStopped_none]

/-- A write completes when its register is present, its own checks pass and the clocks survive its stores. -/
theorem exec_wr_of_clocks {r : Reg} {d : Word} {s : State} (hp : r.present s.cfg = true) (hc : ownCheck d s r = none)
    (hk : clockFault (storesOf d s r) = none) : exec (.wr d r) s = .next (s.stored r d) := by
  rw [exec_wr_of_unchecked hp hc, store_of_clocks hk]

/-- A write whose own checks find a hazard ends in it. -/
theorem exec_wr_of_hazard {r : Reg} {d : Word} {s : State} {k : Fault} (hp : r.present s.cfg = true)
    (hc : ownCheck d s r = some (.inl k)) : exec (.wr d r) s = .fault k := by
  rw [exec_wr, ifPresent_of_present hp, hc, unlessStopped_hazard]

/-- A write whose own checks find a refusal ends in it. -/
theorem exec_wr_of_refusal {r : Reg} {d : Word} {s : State} {x : Refusal} (hp : r.present s.cfg = true)
    (hc : ownCheck d s r = some (.inr x)) : exec (.wr d r) s = .refused x := by
  rw [exec_wr, ifPresent_of_present hp, hc, unlessStopped_refusal]

/-- The hazard a write ends in is one of its own rule, or the clock check's with the stores made. -/
theorem exec_wr_fault {r : Reg} {d : Word} {s : State} {k : Fault} (h : exec (.wr d r) s = .fault k) :
    r.present s.cfg = true ∧
      (ownCheck d s r = some (.inl k) ∨ ownCheck d s r = none ∧ clockFault (storesOf d s r) = some k) := by
  rw [exec_wr] at h
  cases hp : r.present s.cfg with
  | false => simp [ifPresent, hp, refuse] at h
  | true =>
    rw [ifPresent_of_present hp] at h
    refine ⟨rfl, ?_⟩
    match hc : ownCheck d s r with
    | none => rw [hc, unlessStopped_none, store_fault] at h; exact .inr ⟨rfl, h⟩
    | some (.inl k') => rw [hc, unlessStopped_hazard] at h; cases h; exact .inl rfl
    | some (.inr x) => rw [hc, unlessStopped_refusal] at h; cases h

/-- Settles O6: a present register's command is stopped by its own rule, by the clock check or not at all. -/
theorem absentRegisterRefused : Obligations.AbsentRegisterRefused := by
  intro s i
  refine ⟨fun h => ?_, exec_of_absent⟩
  by_contra hp
  have present : i.reg.present s.cfg = true := by simpa [Instr.wf] using hp
  obtain hi | ⟨d, hi⟩ := instr_cases i
  · rw [hi, exec_rd_of_present present] at h
    cases h
  · rw [hi, exec_wr, ifPresent_of_present present] at h
    match hc : ownCheck d s i.reg with
    | none =>
      rw [hc, unlessStopped_none, store, commit] at h
      split at h <;> cases h
    | some (.inl k) => rw [hc, unlessStopped_hazard] at h; cases h
    | some (.inr x) =>
      rw [hc, unlessStopped_refusal] at h
      cases h
      exact (ownCheck_ne d s i.reg).1 _ hc

end Sys2Proof.Machine
end

section
/-! SUPPORT. The taps under the spec's own map (rules R37, R104): which a tap register holds, where, and what a write of
some of them leaves. -/

namespace Sys2Proof.Machine

open Sys2Proof

/-- The places of tap `k`: the low half of its register for an even `k`, the high half for an odd one (rule R104). -/
def tapPlace (k : Nat) : TapPlaces :=
  { rstn := 16 * (k % 2), clken := 16 * (k % 2) + 1, ratio := ⟨16 * (k % 2) + 8, 8⟩ }

/-- The fields a write of `d` gives tap `k`. -/
def tapFromWord (d : Word) (k : Nat) : Tap :=
  { rstn := d.getLsbD (16 * (k % 2)), clken := d.getLsbD (16 * (k % 2) + 1),
    ratio := (d.extractLsb' (16 * (k % 2) + 8) 8).setWidth 32 }

theorem tapOfWord_tapPlace (d : Word) (k : Nat) : tapOfWord (tapPlace k) d = tapFromWord d k := rfl

/-- `PLL_OUTA` holds taps 0 and 1. -/
theorem taps_pllOutA_spec {cfg : Config} (h : cfg.map = .spec) (p : PllId) :
    (Reg.pllOutA p).taps cfg = numbered (cfg.ntaps.get p) 0 [tapPlace 0, tapPlace 1] := by
  rw [Reg.taps, h]
  rfl

/-- `PLL_OUTB` holds taps 2 and 3. -/
theorem taps_pllOutB_spec {cfg : Config} (h : cfg.map = .spec) (p : PllId) :
    (Reg.pllOutB p).taps cfg = numbered (cfg.ntaps.get p) 2 [tapPlace 2, tapPlace 3] := by
  rw [Reg.taps, h]
  rfl

/-- Two places numbered from `k` on. -/
theorem mem_numbered_pair {n k j : Nat} {f g x : TapPlaces} :
    (j, x) ∈ numbered n k [f, g] ↔ j < n ∧ (j = k ∧ x = f ∨ j = k + 1 ∧ x = g) := by
  rw [mem_numbered]
  constructor
  · rintro ⟨low, high, there⟩
    match e : j - k with
    | 0 => rw [e] at there; exact ⟨high, .inl ⟨by omega, (Option.some.inj there).symm⟩⟩
    | 1 => rw [e] at there; exact ⟨high, .inr ⟨by omega, (Option.some.inj there).symm⟩⟩
    | i + 2 => rw [e] at there; simp at there
  · rintro ⟨high, ⟨rfl, rfl⟩ | ⟨rfl, rfl⟩⟩
    · exact ⟨Nat.le_refl _, high, by simp⟩
    · exact ⟨by omega, high, by simp⟩

/-- The taps a tap register holds under the spec's map. -/
theorem mem_taps_spec {cfg : Config} (h : cfg.map = .spec) {r : Reg} {p : PllId} (hr : r = .pllOutA p ∨ r = .pllOutB p)
    {j : Nat} {f : TapPlaces} :
    (j, f) ∈ r.taps cfg ↔ j < cfg.ntaps.get p ∧ (j < 4 ∧ (r = .pllOutA p ↔ j < 2)) ∧ f = tapPlace j := by
  obtain rfl | rfl := hr
  · rw [taps_pllOutA_spec h, mem_numbered_pair]
    constructor
    · rintro ⟨hn, ⟨rfl, rfl⟩ | ⟨rfl, rfl⟩⟩ <;> simp [hn]
    · rintro ⟨hn, ⟨-, low⟩, rfl⟩
      have : j < 2 := low.1 rfl
      interval_cases j <;> simp [hn]
  · rw [taps_pllOutB_spec h, mem_numbered_pair]
    constructor
    · rintro ⟨hn, ⟨rfl, rfl⟩ | ⟨rfl, rfl⟩⟩ <;> simp [hn]
    · rintro ⟨hn, ⟨high, low⟩, rfl⟩
      have : ¬j < 2 := fun hj => nomatch low.2 hj
      interval_cases j <;> simp_all

/-- A write of some taps of a PLL that has `n`, tap by tap. -/
theorem storeTaps_eq_map {held : List (Nat × TapPlaces)} {d : Word} {l : List Tap} {n : Nat} {P : Nat → Prop}
    [DecidablePred P] {new : Nat → Tap} (hl : l.length = n) (hnodup : (held.map (·.1)).Nodup)
    (hheld : ∀ x ∈ held, x.1 < n) (hin : ∀ j < n, P j → ∃ f, (j, f) ∈ held ∧ tapOfWord f d = new j)
    (hout : ∀ j < n, ¬P j → j ∉ held.map (·.1)) :
    storeTaps held d l = (List.range n).map fun j => if P j then new j else tapAt l j := by
  refine taps_ext ?_ fun j => ?_
  · rw [length_storeTaps d (by simpa [hl] using hheld), hl, List.length_map, List.length_range]
  · rw [tapAt_map_range]
    by_cases hj : j < n
    · by_cases hP : P j
      · obtain ⟨f, hf, e⟩ := hin j hj hP
        rw [if_pos hj, if_pos hP, tapAt_storeTaps_held hnodup hf, e]
      · rw [if_pos hj, if_neg hP, tapAt_storeTaps_other (hout j hj hP)]
    · rw [if_neg hj, tapAt_storeTaps_other, tapAt_of_length_le (by omega)]
      intro hmem
      obtain ⟨x, hx, rfl⟩ := List.mem_map.1 hmem
      exact hj (hheld x hx)

/-- A write of a tap register stores the taps it holds and leaves the others (rule R151). -/
theorem storeTaps_spec {cfg : Config} (h : cfg.map = .spec) {r : Reg} {p : PllId}
    (hr : r = .pllOutA p ∨ r = .pllOutB p) (d : Word) {l : List Tap} (hl : l.length = cfg.ntaps.get p) :
    storeTaps (r.taps cfg) d l = (List.range (cfg.ntaps.get p)).map fun j =>
      if j < 4 ∧ (r = .pllOutA p ↔ j < 2) then tapFromWord d j else tapAt l j := by
  refine storeTaps_eq_map hl (taps_nodup cfg r) (fun x hx => ((mem_taps_spec h hr).1 hx).1) (fun j hj hP => ?_)
    fun j hj hP hmem => ?_
  · exact ⟨tapPlace j, (mem_taps_spec h hr).2 ⟨hj, hP, rfl⟩, rfl⟩
  · obtain ⟨⟨j, f⟩, hx, rfl⟩ := List.mem_map.1 hmem
    exact hP ((mem_taps_spec h hr).1 hx).2.1

/-- What stands before tap `j` in its register: the tap below it when `j` is the second, else nothing. -/
theorem mem_takeWhile_taps_spec {cfg : Config} (h : cfg.map = .spec) {r : Reg} {p : PllId}
    (hr : r = .pllOutA p ∨ r = .pllOutB p) {j a : Nat} {f g : TapPlaces} (hj : (j, g) ∈ r.taps cfg) :
    (a, f) ∈ (r.taps cfg).takeWhile (fun x => x.1 != j) ↔ (j % 2 = 1 ∧ a + 1 = j) ∧ f = tapPlace a := by
  obtain rfl | rfl := hr
  · rw [taps_pllOutA_spec h] at hj ⊢
    obtain ⟨hn, ⟨rfl, -⟩ | ⟨rfl, -⟩⟩ := mem_numbered_pair.1 hj
    · simp [numbered, hn]
    · have : 0 < cfg.ntaps.get p := by omega
      simp only [numbered, this, hn, if_true, List.takeWhile]
      simpa using fun e => by rw [e]
  · rw [taps_pllOutB_spec h] at hj ⊢
    obtain ⟨hn, ⟨rfl, -⟩ | ⟨rfl, -⟩⟩ := mem_numbered_pair.1 hj
    · simp [numbered, hn]
    · have : 2 < cfg.ntaps.get p := by omega
      simp only [numbered, this, hn, if_true, List.takeWhile]
      simpa using fun e => by rw [e]

/-- What a write has stored before its check of tap `j` (rule R151). -/
theorem storeTaps_below_spec {cfg : Config} (h : cfg.map = .spec) {r : Reg} {p : PllId}
    (hr : r = .pllOutA p ∨ r = .pllOutB p) (d : Word) {l : List Tap} (hl : l.length = cfg.ntaps.get p) {j : Nat}
    {g : TapPlaces} (hj : (j, g) ∈ r.taps cfg) :
    storeTaps ((r.taps cfg).takeWhile (fun x => x.1 != j)) d l = (List.range (cfg.ntaps.get p)).map fun a =>
      if j % 2 = 1 ∧ a + 1 = j then tapFromWord d a else tapAt l a := by
  have hsub := List.takeWhile_sublist (fun x : Nat × TapPlaces => x.1 != j) (l := r.taps cfg)
  refine storeTaps_eq_map hl ((taps_nodup cfg r).sublist (hsub.map _))
    (fun x hx => ((mem_taps_spec h hr).1 (hsub.subset hx)).1) (fun a _ hP => ?_) fun a _ hP hmem => ?_
  · exact ⟨tapPlace a, (mem_takeWhile_taps_spec h hr hj).2 ⟨hP, rfl⟩, rfl⟩
  · obtain ⟨⟨a, f⟩, hx, rfl⟩ := List.mem_map.1 hmem
    exact hP ((mem_takeWhile_taps_spec h hr hj).1 hx).1

end Sys2Proof.Machine
end

section
/-! PROOFS of the steps and of how they end (obligations O7 to O10, `spec/10_state.md`, `spec/60_exceptions.md`). -/

namespace Sys2Proof.Machine

open Sys2Proof

/-- A master at a command issues it and runs on (rule R60). -/
theorem masterStep_of_cmd {s : State} {c : Cmd} {rest : List Op} (h : s.master.prog = .cmd c :: rest) :
    masterStep s = onNext State.settle (issue c (s.load rest)) := by
  rw [masterStep, settle_of_cmd h, issueNext, h]

theorem onNext_fault {f : State → State} {x : Result} {k : Fault} : onNext f x = .fault k ↔ x = .fault k := by
  cases x <;> simp [onNext]

/-- The step of a run that has not ended, when nothing is scheduled. -/
theorem step_of_running {s : State} (hf : s.fault = none) (hr : s.refused = false) : step s = scheduledStep s := by
  rw [step, hf, hr]
  rfl

/-- Settles O7: nothing stands between the step and the decoded command's meaning. -/
theorem stepRunsDecoded : Obligations.StepRunsDecoded := by
  intro s bytes rest i hf hr hs hp hd
  have master : masterStep s = onNext State.settle (exec i (s.load rest)) := by
    rw [masterStep_of_cmd hp]
    simp only [issue, busWord, load_cfg, hd, busCommand]
  have same : { s with sched := [] } = s := by rw [← hs]
  constructor
  · rw [step_of_running hf hr, scheduledStep, hs, master]
  · rw [step_of_running (s := { s with sched := [.master] }) hf hr]
    show masterStep { s with sched := [] } = _
    rw [same, master]

/-- A run that ends in a hazard keeps what its step leaves, with the mark (rule R325). -/
theorem runMove_of_fault {s : State} {m : Move} {k : Fault} (he : s.ended = false) (h : takeMove m s = .fault k) :
    runMove s m = { moveLeft m s k with fault := some k } := by
  have clear : s.fault = none := by
    rw [State.ended, Bool.or_eq_false_iff] at he
    simpa using he.1
  rw [runMove, he, if_neg Bool.false_ne_true, h, mark_fault, State.withFault, moveLeft_fault, clear, Option.getD_none]

/-- A refusal changes nothing but the mark (rule R326). -/
theorem runMove_of_refused {s : State} {m : Move} {x : Refusal} (he : s.ended = false) (h : takeMove m s = .refused x) :
    runMove s m = { s with refused := true } := by
  rw [runMove, he, if_neg Bool.false_ne_true, h, mark_refused]

/-- The hazards whose rules raise before they store anything (rule R325). -/
def RaisedFirst (k : Fault) : Prop :=
  (∃ p, k = .pllReprogramWhileEnabled p) ∨ k = .cpuClockEnabledBadly ∨ (∃ x, k = .resetReleasedUnpowered x) ∨
    (∃ c, k = .core0ReleasedBeforeNonCpu c) ∨ (∃ c, k = .core0ReleasedWithoutClock c) ∨ k = .softRstNotMirrored

theorem storedAtFault_of_raisedFirst {k : Fault} (h : RaisedFirst k) (r : Reg) (d : Word) (s : State) :
    storedAtFault k r d s = s := by
  obtain ⟨_, rfl⟩ | rfl | ⟨_, rfl⟩ | ⟨_, rfl⟩ | ⟨_, rfl⟩ | rfl := h <;> rfl

theorem raisedFirst_ne_clockLost {k : Fault} (h : RaisedFirst k) (d : ClockDomain) : k ≠ .clockLost d := by
  obtain ⟨_, rfl⟩ | rfl | ⟨_, rfl⟩ | ⟨_, rfl⟩ | ⟨_, rfl⟩ | rfl := h <;> simp

/-- A hazard other than a lost clock leaves of a master's write what it stored before the check. -/
theorem masterLeft_of_nextWrite {s : State} {r : Reg} {d : Word} {rest : List Op} {k : Fault}
    (h : nextWrite s = some (r, d, rest)) (hk : ∀ c, k ≠ .clockLost c) : masterLeft s k = storedAtFault k r d s := by
  unfold masterLeft
  rw [h]
  cases k with
  | clockLost c => exact absurd rfl (hk c)
  | _ => rfl

theorem masterLeft_of_raisedFirst {s : State} {k : Fault} (h : RaisedFirst k) : masterLeft s k = s := by
  match hw : nextWrite s with
  | none =>
    unfold masterLeft
    rw [hw]
  | some (r, d, rest) =>
    rw [masterLeft_of_nextWrite hw (raisedFirst_ne_clockLost h), storedAtFault_of_raisedFirst h]

/-- Settles O8: an agent raises `ClockLost` only, and a master's hazard leaves what `masterLeft` says. -/
theorem endedRunStays : Obligations.EndedRunStays := by
  intro s m
  refine ⟨fun k hk => by rw [step, hk], fun hf hr => by rw [step, hf, hr]; rfl, fun he => by rw [runMove, if_pos he],
    fun he => ⟨fun r hr => runMove_of_refused he hr, fun k hk => ⟨runMove_of_fault he hk, fun first => ?_⟩⟩⟩
  rw [runMove_of_fault he hk]
  cases m with
  | master => rw [moveLeft, masterLeft_of_raisedFirst first]
  | agent a =>
    obtain ⟨d, lost⟩ := clockFault_some (agentStepWith_fault hk).2.2
    exact absurd lost (raisedFirst_ne_clockLost first d)

/-! A master at a write of a literal. -/

/-- The step of a master at a write ends in a hazard exactly when the write does. -/
theorem takeMove_wr_fault {s : State} {r : Reg} {d : Word} {rest : List Op} {k : Fault}
    (hp : s.master.prog = .cmd (.wr r (.lit d)) :: rest) :
    takeMove .master s = .fault k ↔ exec (.wr d r) (s.load rest) = .fault k := by
  rw [takeMove, masterStep_of_cmd hp, onNext_fault]
  rfl

/-- A write that loses a clock is made and recorded (rule R325). -/
theorem runMove_of_clockLost {s : State} {r : Reg} {d : Word} {rest : List Op} {k : ClockDomain} (he : s.ended = false)
    (hp : s.master.prog = .cmd (.wr r (.lit d)) :: rest) (h : takeMove .master s = .fault (.clockLost k)) :
    runMove s .master = { (s.load rest).stored r d with fault := some (.clockLost k) } := by
  rw [runMove_of_fault he h, moveLeft]
  unfold masterLeft
  rw [nextWrite_of_wr hp, settle_of_cmd hp]
  rfl

/-- Another hazard leaves what the write stored before the check that raises (rule R325, log entry 6). -/
theorem runMove_of_hazard {s : State} {r : Reg} {d : Word} {rest : List Op} {k : Fault} (he : s.ended = false)
    (hp : s.master.prog = .cmd (.wr r (.lit d)) :: rest) (h : takeMove .master s = .fault k)
    (hk : ∀ c, k ≠ .clockLost c) : runMove s .master = { storedAtFault k r d s with fault := some k } := by
  rw [runMove_of_fault he h, moveLeft, masterLeft_of_nextWrite (nextWrite_of_wr hp) hk]
  rfl

/-- Only these registers hold what the clock check looks at (rule R182). -/
theorem clockFault_storesOf (d : Word) (s : State) (r : Reg) :
    clockFault (storesOf d s r) = clockFault s ∨ r = .sclkBurstPolicy ∨ r = .cclkBurstPolicy ∨ r = .clkEnb ∨
      ∃ p, r = .pllBase p ∨ r = .pllOutA p ∨ r = .pllOutB p := by
  cases r with
  | sclkBurstPolicy | cclkBurstPolicy | clkEnb | pllBase p | pllOutA p | pllOutB p => simp
  | ramRepair =>
    left
    simp only [storesOf, storedRepair]
    split
    · rfl
    · split <;> rfl
  | tmrPtv =>
    left
    simp only [storesOf, storedTimer]
    split <;> rfl
  | _ => exact .inl (clockFault_congr rfl rfl rfl rfl rfl rfl rfl)

/-- `pll_stable` survives only while the PLL was and stays enabled (rule R146). -/
theorem stableAfter_eq (old new : PllBase) (stable : Bool) :
    stableAfter old new stable = (old.enable && new.enable && stable) := by
  unfold stableAfter
  cases old.enable <;> cases new.enable <;> rfl

/-- The stores of a tap register's write under the spec's map, whole. -/
theorem storesOf_taps_spec {s : State} (h : s.cfg.map = .spec) {r : Reg} {p : PllId}
    (hr : r = .pllOutA p ∨ r = .pllOutB p) (d : Word) (hl : (s.taps.get p).length = s.cfg.ntaps.get p) :
    storesOf d s r = { s with taps := s.taps.set p ((List.range (s.cfg.ntaps.get p)).map fun j =>
      if j < 4 ∧ (r = .pllOutA p ↔ j < 2) then tapFromWord d j else tapAt (s.taps.get p) j) } := by
  rw [← storeTaps_spec h hr d hl]
  obtain rfl | rfl := hr <;> rfl

/-- The gates a word names under the spec's map (rule R106). -/
theorem gatesOfWord_spec (d : Word) :
    gatesOfWord .spec d =
      { cpu := d.getLsbD 0, timer := d.getLsbD 1, gpio := d.getLsbD 2, memc := d.getLsbD 3, dma0 := d.getLsbD 4,
        dma1 := d.getLsbD 5 } := rfl

/-- The fields of a `PLL_BASE` write under the spec's map (rule R35). -/
theorem pllBaseOfWord_spec (d : Word) :
    pllBaseOfWord .spec d =
      { divm := (d.extractLsb' 0 5).setWidth 32, divn := (d.extractLsb' 8 10).setWidth 32,
        divp := (d.extractLsb' 20 3).setWidth 32, enable := d.getLsbD 30, bypass := d.getLsbD 31 } := rfl

/-- The stores of a `PLL_BASE` write under the spec's map, whole. -/
theorem storesOf_pllBase_spec {s : State} (h : s.cfg.map = .spec) (p : PllId) (d : Word) :
    storesOf d s (.pllBase p) = { s with
      pllBase := s.pllBase.set p
        { divm := (d.extractLsb' 0 5).setWidth 32, divn := (d.extractLsb' 8 10).setWidth 32,
          divp := (d.extractLsb' 20 3).setWidth 32, enable := d.getLsbD 30, bypass := d.getLsbD 31 }
      pllStable := s.pllStable.set p ((s.pllBase.get p).enable && d.getLsbD 30 && s.pllStable.get p) } := by
  rw [storesOf, storedPllBase, stableAfter_eq, h, pllBaseOfWord_spec]

/-- Settles O9: a lost clock is found after the stores, and only these stores can lose one. -/
theorem clockLostStored : Obligations.ClockLostStored := by
  intro s d k rest r hmap he hp h
  refine ⟨fun clean => ?_, fun new t hnew ht => ?_⟩
  · obtain ⟨-, own | ⟨-, lost⟩⟩ := exec_wr_fault ((takeMove_wr_fault hp).1 h)
    · exact absurd own ((ownCheck_ne d _ r).2 k)
    · refine (clockFault_storesOf d (s.load rest) r).resolve_left fun same => ?_
      rw [same, clockFault_load, clean] at lost
      cases lost
  · have hmap' : (s.load rest).cfg.map = .spec := hmap
    obtain rfl : new = tapFromWord d := funext hnew
    rw [runMove_of_clockLost he hp h, State.stored, ht]
    refine ⟨?_, ?_, ?_, ?_, ?_⟩
    · rintro rfl
      rw [storesOf, hmap']
      rfl
    · rintro rfl
      rw [storesOf, hmap']
      rfl
    · rintro rfl
      rw [storesOf, hmap', gatesOfWord_spec]
      rfl
    · rintro p rfl
      rw [storesOf_pllBase_spec hmap']
      rfl
    · intro p hr hl
      rw [storesOf_taps_spec hmap' hr d hl]
      rfl

/-- The tap hazard is raised by a write of a register of its PLL that holds the tap. -/
theorem tap_of_ownCheck {d : Word} {s : State} {r : Reg} {p : PllId} {j : Nat}
    (h : ownCheck d s r = some (.inl (.tapEnabledBeforeBase p j))) :
    (r = .pllOutA p ∨ r = .pllOutB p) ∧ ∃ f, (j, f) ∈ r.taps s.cfg := by
  cases r with
  | pllOutA q | pllOutB q =>
    rw [ownCheck, Option.map_eq_some_iff] at h
    obtain ⟨x, hx, e⟩ := h
    cases e
    exact ⟨by simp, x.2, List.mem_of_find?_eq_some hx⟩
  | rstCmplxClr c =>
    simp only [ownCheck, releaseFault] at h
    repeat' split at h
    all_goals simp at h
  | pwrgateToggle =>
    simp only [ownCheck] at h
    repeat' split at h
    all_goals simp at h
  | removeClampingCmd => simp [ownCheck] at h
  | clkEnb | rstDevClr | pllBase p | clusterControl | tmrPtv =>
    simp only [ownCheck] at h
    split at h <;> simp at h
  | _ => simp [ownCheck] at h

/-- The partitions before `i` in the loop of rule R197 are those with a lower number (rule R106). -/
theorem before_iff_number (i j : Part) :
    (Part.all.takeWhile (· != i)).contains j =
      decide (RegMap.spec.partId.get j < RegMap.spec.partId.get i) := by
  cases i <;> cases j <;> rfl

/-- Settles O10: what each hazard leaves is `storedAtFault`, in the order of the pseudocode's stores. -/
theorem hazardKeepsEarlierStores : Obligations.HazardKeepsEarlierStores := by
  intro s d k rest r hmap he hp h number new hnumber hnew
  obtain rfl : number = RegMap.spec.partId := hnumber
  obtain rfl : new = tapFromWord d := funext hnew
  refine ⟨fun hk => ?_, ?_, ?_⟩
  · have left : storedAtFault k r d s = { s with partId := (d.extractLsb' 0 5).setWidth 32 } := by
      obtain rfl | ⟨i, rfl⟩ := hk <;> rw [storedAtFault, hmap] <;> rfl
    rw [runMove_of_hazard he hp h (by obtain rfl | ⟨i, rfl⟩ := hk <;> simp), left]
  · rintro i rfl
    refine ⟨(storedClampsBelow i d s).clampPending, fun j => ?_, ?_⟩
    · simp only [storedClampsBelow, PerPart.get_ofFn, before_iff_number, namesPart, hmap]
    · rw [runMove_of_hazard he hp h (by simp)]
      rfl
  · rintro p j rfl hl
    have own : ownCheck d (s.load rest) r = some (.inl (.tapEnabledBeforeBase p j)) := by
      obtain ⟨-, own | ⟨-, lost⟩⟩ := exec_wr_fault ((takeMove_wr_fault hp).1 h)
      · exact own
      · obtain ⟨c, hc⟩ := clockFault_some lost
        cases hc
    obtain ⟨hr, f, hf⟩ := tap_of_ownCheck own
    rw [runMove_of_hazard he hp h (by simp), storedAtFault, storedTapsBelow, storedTaps,
      storeTaps_below_spec hmap hr d hl hf]

end Sys2Proof.Machine
end

section
/-! PROOFS of the hardware agents' steps (obligations O36, O37, O38 and O40, `spec/10_state.md`). -/

namespace Sys2Proof.Machine

open Sys2Proof

/-- What no agent's effect touches: every `RW` field, reset line, input, and the master (rule R92). -/
theorem agentEffect_frame (x : Draw) (a : HwAgent) (s : State) :
    agentEffect x a s =
      { s with
        detBusy := (agentEffect x a s).detBusy, detCount := (agentEffect x a s).detCount
        nonCpuInReset := (agentEffect x a s).nonCpuInReset, pwrStatus := (agentEffect x a s).pwrStatus
        ramSts := (agentEffect x a s).ramSts, tmrExpired := (agentEffect x a s).tmrExpired
        pllStable := (agentEffect x a s).pllStable, pgPending := (agentEffect x a s).pgPending
        clamp := (agentEffect x a s).clamp, clampPending := (agentEffect x a s).clampPending
        tmrRunning := (agentEffect x a s).tmrRunning, tmrSettle := (agentEffect x a s).tmrSettle
        repairPending := (agentEffect x a s).repairPending, entry := (agentEffect x a s).entry
        drawn := (agentEffect x a s).drawn } := by
  cases a with
  | powerGate =>
    simp only [agentEffect, completeToggle]
    split
    · rfl
    · split <;> rfl
  | _ => rfl

@[simp] theorem agentEffect_cfg (x : Draw) (a : HwAgent) (s : State) : (agentEffect x a s).cfg = s.cfg :=
  congrArg (·.cfg) (agentEffect_frame x a s)

@[simp] theorem agentEffect_refused (x : Draw) (a : HwAgent) (s : State) : (agentEffect x a s).refused = s.refused :=
  congrArg (·.refused) (agentEffect_frame x a s)

@[simp] theorem agentEffect_history (x : Draw) (a : HwAgent) (s : State) : (agentEffect x a s).history = s.history :=
  congrArg (·.history) (agentEffect_frame x a s)

@[simp] theorem agentEffect_master (x : Draw) (a : HwAgent) (s : State) : (agentEffect x a s).master = s.master :=
  congrArg (·.master) (agentEffect_frame x a s)

@[simp] theorem agentEffect_sched (x : Draw) (a : HwAgent) (s : State) : (agentEffect x a s).sched = s.sched :=
  congrArg (·.sched) (agentEffect_frame x a s)

@[simp] theorem agentEffect_pllBase (x : Draw) (a : HwAgent) (s : State) : (agentEffect x a s).pllBase = s.pllBase :=
  congrArg (·.pllBase) (agentEffect_frame x a s)

@[simp] theorem agentEffect_clkEnb (x : Draw) (a : HwAgent) (s : State) : (agentEffect x a s).clkEnb = s.clkEnb :=
  congrArg (·.clkEnb) (agentEffect_frame x a s)

@[simp] theorem agentEffect_rstCmplx (x : Draw) (a : HwAgent) (s : State) :
    (agentEffect x a s).rstCmplx = s.rstCmplx :=
  congrArg (·.rstCmplx) (agentEffect_frame x a s)

@[simp] theorem agentEffect_resetVector (x : Draw) (a : HwAgent) (s : State) :
    (agentEffect x a s).resetVector = s.resetVector :=
  congrArg (·.resetVector) (agentEffect_frame x a s)

/-! What only one agent touches. -/

theorem agentEffect_pllStable {a : HwAgent} (x : Draw) (s : State) (h : ∀ p, a ≠ .pll p) :
    (agentEffect x a s).pllStable = s.pllStable := by
  cases a with
  | pll p => exact absurd rfl (h p)
  | powerGate =>
    simp only [agentEffect, completeToggle]
    split
    · rfl
    · split <;> rfl
  | _ => rfl

/-- A stable PLL stays stable under every agent (rule R147). -/
theorem agentEffect_stable_mono (x : Draw) (a : HwAgent) (s : State) (p : PllId) (h : s.pllStable.get p = true) :
    (agentEffect x a s).pllStable.get p = true := by
  by_cases hp : ∃ q, a = .pll q
  · obtain ⟨q, rfl⟩ := hp
    simp only [agentEffect, stabilise, PerPll.get_set]
    split
    · rfl
    · exact h
  · rwa [agentEffect_pllStable x s fun q e => hp ⟨q, e⟩]

/-- No agent makes a PLL's output unclean. -/
theorem agentEffect_pllOutOk (x : Draw) (a : HwAgent) (s : State) (p : PllId) (h : pllOutOk s p = true) :
    pllOutOk (agentEffect x a s) p = true := by
  simp only [pllOutOk, agentEffect_pllBase, Bool.or_eq_true, Bool.and_eq_true] at h ⊢
  exact h.imp_right (.imp_right (agentEffect_stable_mono x a s p))

/-- No agent's step loses a clock (rules R147, R182). -/
theorem agentEffect_clocks (x : Draw) (a : HwAgent) {s : State} (h : clockFault s = none) :
    clockFault (agentEffect x a s) = none := by
  have frame := agentEffect_frame x a s
  exact clockFault_mono (agentEffect_cfg x a s) (congrArg (·.sysSrc) frame) (congrArg (·.cpuSrc) frame)
    (congrArg (·.clkEnb.cpu) frame) (congrArg (·.taps) frame) (agentEffect_pllOutOk x a s) h

/-- An enabled step of a present agent completes while the clocks are clean. -/
theorem agentStepWith_of_clocks {x : Draw} {a : HwAgent} {s : State} (hc : clockFault s = none)
    (hp : agentPresent s.cfg a = true) (he : agentEnabled s a = true) :
    agentStepWith x a s = .next ((agentEffect x a s).log (.agent a)) :=
  agentStepWith_of_enabled hp he (agentEffect_clocks x a hc)

/-- Settles O40: the frame of the effect is the frame of the step. -/
theorem agentsWriteNoRegister : Obligations.AgentsWriteNoRegister := by
  intro s t a h
  obtain ⟨-, -, -, rfl⟩ | ⟨-, rfl⟩ := agentStepWith_next.1 h
  · rw [log_history, agentEffect_history]
    exact congrArg (State.log · (.agent a)) (agentEffect_frame s.nextDraw a s)
  · rfl

theorem nonCpuPart_eq (c : Cluster) : nonCpuPart c = if c = .p then .nonCpuP else .nonCpuE := by cases c <;> rfl

theorem cpuPart_eq (c : Cluster) : cpuPart c = if c = .p then .cpu0P else .cpuE := by cases c <;> rfl

/-- Settles O36: each agent's conditions are the statement's, and with clean clocks its effect stands. -/
theorem agentSteps : Obligations.AgentSteps := by
  intro s hc
  refine ⟨fun p hp hen hst hm hn => ?_, fun i hi => ?_, fun hp hr hrail => ?_, fun c hp hline hst hpow => ?_,
    fun hentry hruns => ?_⟩
  · exact agentStepWith_of_clocks hc hp (by simpa [agentEnabled, dividersRun, hen, hst] using ⟨hm, hn⟩)
  · exact agentStepWith_of_clocks hc rfl hi
  · exact agentStepWith_of_clocks hc hp (by simp [agentEnabled, hr, hrail])
  · rw [← nonCpuPart_eq] at hpow
    exact agentStepWith_of_clocks hc hp (by simp [agentEnabled, hline, hst, hpow])
  · exact agentStepWith_of_clocks hc rfl (by simpa [agentEnabled, hentry] using hruns)

theorem completeToggle_of_powered {x : Draw} {s : State} {i : Part} (h : s.pgPending = some i)
    (hi : isPowered s i = true) :
    completeToggle x s = { s with
      pwrStatus := s.pwrStatus.set i false, pgPending := none, clamp := s.clamp.set i x.clamp
      clampPending := s.clampPending.set i false, drawn := s.drawn + 1 } := by
  simp only [completeToggle, h, hi, if_true]

theorem completeToggle_of_unpowered {x : Draw} {s : State} {i : Part} (h : s.pgPending = some i)
    (hi : isPowered s i = false) :
    completeToggle x s = { s with pwrStatus := s.pwrStatus.set i true, pgPending := none } := by
  simp only [completeToggle, h, hi, Bool.false_eq_true, if_false]

/-- Settles O37: powering down and powering up each touch the named partition's entries only. -/
theorem toggleCompletes : Obligations.ToggleCompletes := by
  intro s i x hc hi
  have stepped : agentStepWith x .powerGate s = .next ((completeToggle x s).log (.agent .powerGate)) :=
    agentStepWith_of_clocks hc rfl (by simp [agentEnabled, hi])
  refine ⟨_, stepped, ?_⟩
  cases hp : isPowered s i with
  | true =>
    rw [completeToggle_of_powered hi hp]
    refine ⟨rfl, by simp [isPowered], fun j hj => by simp [isPowered, PerPart.get_set, hj], by simp, fun _ => ?_, rfl⟩
    exact ⟨by simp, fun j hj => by simp [PerPart.get_set, hj]⟩
  | false =>
    rw [completeToggle_of_unpowered hi hp]
    exact ⟨rfl, by simp [isPowered], fun j hj => by simp [isPowered, PerPart.get_set, hj], fun _ => ⟨rfl, rfl, rfl⟩,
      by simp, rfl⟩

/-- A draw from a range that is not empty lies in it (rule R255). -/
theorem countInRange_holds {r : CountRange} (h : r.lo ≤ r.hi) (raw : Word) : r.holds (countInRange r raw) = true := by
  have small : raw.toNat % (r.hi.toNat - r.lo.toNat + 1) < r.hi.toNat - r.lo.toNat + 1 :=
    Nat.mod_lt _ (Nat.succ_pos _)
  have bound := r.hi.isLt
  have value : (countInRange r raw).toNat = r.lo.toNat + raw.toNat % (r.hi.toNat - r.lo.toNat + 1) := by
    rw [BitVec.le_def] at h
    rw [countInRange, BitVec.toNat_add, BitVec.toNat_ofNat]
    omega
  rw [CountRange.holds, Bool.and_eq_true, decide_eq_true_eq, decide_eq_true_eq, BitVec.le_def, BitVec.le_def, value]
  rw [BitVec.le_def] at h
  omega

/-- A draw from the counts in no range lies in none, where there is such a count (rule R255). -/
theorem countOutside_outside {cfg : Config} (h : cfg.outsideOk = true) (raw : Word) :
    cfg.outside (countOutside cfg raw) = true := by
  unfold countOutside
  split
  · assumption
  · have found : (cfg.outsideCandidates.find? cfg.outside).isSome = true :=
      List.find?_isSome.2 (List.any_eq_true.1 h)
    obtain ⟨n, hn⟩ := Option.isSome_iff_exists.1 found
    rw [hn, Option.getD_some]
    exact List.find?_some hn

/-- A count up to the end of a range is one that `COUNT` can hold (rule R257). -/
theorem range_holds {cfg : Config} (h : cfg.rangesOk = true) {o : Oscillator} (ho : o ∈ cfg.oscSet) :
    o.range.lo ≤ o.range.hi ∧ ∀ n, o.range.holds n = true → cfg.map.place.detCount.holds n = true := by
  rw [Config.rangesOk, Bool.and_eq_true, List.all_eq_true] at h
  have row := h.1 o ho
  rw [Bool.and_eq_true, decide_eq_true_eq] at row
  refine ⟨row.1, fun n hn => ?_⟩
  have top := row.2
  rw [CountRange.holds, Bool.and_eq_true, decide_eq_true_eq, decide_eq_true_eq] at hn
  rw [FieldPlace.holds, decide_eq_true_eq] at top ⊢
  exact Nat.lt_of_le_of_lt hn.2 top

/-- Settles O38: the drawn count lies in the fitted crystal's range, or in none, and fits `COUNT`. -/
theorem measurementCompletes : Obligations.MeasurementCompletes := by
  intro s x hosc hranges houtside hc hbusy
  refine ⟨drawCount s x.count, agentStepWith_of_clocks hc rfl hbusy, fun hwin => ⟨fun o ho hact => ?_, fun hnone => ?_⟩⟩
  · obtain ⟨hle, hfits⟩ := range_holds hranges ho
    have inside := countInRange_holds hle (cutTo s.cfg.map.place.detCount x.count)
    rw [drawCount, countOf, hwin, beq_self_eq_true, if_pos rfl, hact, crystalOf_of_mem hosc ho,
      cutTo_of_holds (hfits _ inside)]
    exact codeOfCount_of_mem hranges ho inside
  · have unknown : crystalOf s.cfg s.oscActual = none := by
      rw [crystalOf, List.find?_eq_none]
      exact fun o ho => by simpa using hnone o ho
    have outside := countOutside_outside houtside (cutTo s.cfg.map.place.detCount x.count)
    have fits : s.cfg.map.place.detCount.holds _ = true := (Bool.and_eq_true _ _ ▸ outside).1
    rw [drawCount, countOf, hwin, beq_self_eq_true, if_pos rfl, unknown, cutTo_of_holds fits]
    exact codeOfCount_of_outside outside

end Sys2Proof.Machine
end

section
/-! PROOFS of the invariant (obligation O41, `spec/70_reset_and_hazards.md`): clause by clause, every write that
completes and every agent's step keeps it. -/

namespace Sys2Proof.Machine

open Sys2Proof

/-! The two writes whose stores branch, as one update each. -/

theorem storesOf_ramRepair (d : Word) (s : State) :
    storesOf d s .ramRepair =
      { s with
        ramReq := d.getLsbD s.cfg.map.place.repairReq
        ramSts := d.getLsbD s.cfg.map.place.repairReq && s.ramReq && s.ramSts
        repairPending := d.getLsbD s.cfg.map.place.repairReq && (!s.ramReq || s.repairPending) } := by
  obtain ⟨⟨⟩⟩ := s
  simp only [storesOf, storedRepair]
  split
  · simp_all
  · split <;> simp_all

theorem storesOf_tmrPtv (d : Word) (s : State) :
    storesOf d s .tmrPtv =
      { s with
        tmrEn := d.getLsbD s.cfg.map.place.tmrEn
        tmrPtv := ptvOfWord s.cfg.map d
        tmrRunning := d.getLsbD s.cfg.map.place.tmrEn
        tmrValue := if d.getLsbD s.cfg.map.place.tmrEn then (ptvOfWord s.cfg.map d).toNat else s.tmrValue
        tmrExpired := !d.getLsbD s.cfg.map.place.tmrEn && s.tmrExpired
        tmrSettle :=
          if d.getLsbD s.cfg.map.place.tmrEn then settleCovered s (ptvOfWord s.cfg.map d).toNat else .empty } := by
  obtain ⟨⟨⟩⟩ := s
  simp only [storesOf, storedTimer]
  split <;> simp_all

section
variable {d : Word} {s : State} {r : Reg}

/-! R351, clause by clause, for a write. -/

theorem storesOf_keeps_stable (h : ∀ p, s.pllStable.get p = true → (s.pllBase.get p).enable = true) (p : PllId) :
    (storesOf d s r).pllStable.get p = true → ((storesOf d s r).pllBase.get p).enable = true := by
  cases r with
  | pllBase q =>
    simp only [storesOf, storedPllBase, PerPll.get_set, stableAfter_eq]
    split
    · simp only [Bool.and_eq_true]
      exact fun ⟨⟨_, enabled⟩, _⟩ => enabled
    · exact h p
  | ramRepair => rw [storesOf_ramRepair]; exact h p
  | tmrPtv => rw [storesOf_tmrPtv]; exact h p
  | _ => exact h p

theorem storesOf_keeps_repair (h : s.repairPending = (s.ramReq && !s.ramSts)) :
    (storesOf d s r).repairPending = ((storesOf d s r).ramReq && !(storesOf d s r).ramSts) := by
  cases r with
  | ramRepair =>
    rw [storesOf_ramRepair]
    simp only [h]
    cases d.getLsbD s.cfg.map.place.repairReq <;> cases s.ramReq <;> rfl
  | tmrPtv => rw [storesOf_tmrPtv]; exact h
  | _ => exact h

theorem storesOf_keeps_nonCpu (h : ∀ c, nonCpuAsserted s c = true → s.nonCpuInReset.get c = true) (c : Cluster) :
    nonCpuAsserted (storesOf d s r) c = true → (storesOf d s r).nonCpuInReset.get c = true := by
  cases r with
  | rstCmplxSet q =>
    simp only [storesOf, storedRstSet, nonCpuAsserted, PerCluster.get_set]
    split
    · rename_i e
      subst e
      simp only [Lines.nonCpu_or, Bool.or_eq_true]
      exact Or.imp_left (h _)
    · exact h c
  | rstCmplxClr q =>
    simp only [storesOf, storedRstClr, nonCpuAsserted, PerCluster.get_set]
    split
    · rename_i e
      subst e
      simp only [Lines.nonCpu_without, Bool.and_eq_true]
      exact fun ⟨asserted, _⟩ => h _ asserted
    · exact h c
  | ramRepair => rw [storesOf_ramRepair]; exact h c
  | tmrPtv => rw [storesOf_tmrPtv]; exact h c
  | _ => exact h c

theorem storesOf_keeps_clamps (h : ∀ i, s.clampPending.get i = true → s.clamp.get i = true) (i : Part) :
    (storesOf d s r).clampPending.get i = true → (storesOf d s r).clamp.get i = true := by
  cases r with
  | removeClampingCmd =>
    simp only [storesOf, storedClamps, PerPart.get_ofFn, Bool.or_eq_true, Bool.and_eq_true]
    exact fun pending => pending.elim (h i) And.right
  | ramRepair => rw [storesOf_ramRepair]; exact h i
  | tmrPtv => rw [storesOf_tmrPtv]; exact h i
  | _ => exact h i

theorem storesOf_keeps_timer (h : s.tmrRunning = true → s.tmrExpired = false ∧ s.tmrValue = s.tmrPtv.toNat) :
    (storesOf d s r).tmrRunning = true →
      (storesOf d s r).tmrExpired = false ∧ (storesOf d s r).tmrValue = (storesOf d s r).tmrPtv.toNat := by
  cases r with
  | tmrPtv =>
    rw [storesOf_tmrPtv]
    intro running
    simp only at running
    simp [running]
  | ramRepair => rw [storesOf_ramRepair]; exact h
  | _ => exact h

theorem storesOf_keeps_stopped (h : s.tmrRunning = false → s.tmrSettle = .empty) :
    (storesOf d s r).tmrRunning = false → (storesOf d s r).tmrSettle = .empty := by
  cases r with
  | tmrPtv =>
    rw [storesOf_tmrPtv]
    intro stopped
    simp only at stopped
    simp [stopped]
  | ramRepair => rw [storesOf_ramRepair]; exact h
  | _ => exact h

/-- Lines of cores a cluster has. -/
theorem without_eq_none_iff {x v : Lines} :
    x.without v = .none ↔ (∀ k, x.core.get k &&& ~~~v.core.get k = 0) ∧ (x.nonCpu && !v.nonCpu) = false := by
  refine ⟨fun h => ⟨fun k => ?_, ?_⟩, fun ⟨hk, hn⟩ => Lines.ext_get (fun k => ?_) ?_⟩
  · rw [← Lines.core_without, h, Lines.core_none]
  · rw [← Lines.nonCpu_without, h, Lines.nonCpu_none]
  · rw [Lines.core_without, hk, Lines.core_none]
  · rw [Lines.nonCpu_without, hn, Lines.nonCpu_none]

/-- Adding defined lines adds no undefined one. -/
theorem or_without_eq_none {x y v : Lines} (h : x.without v = .none) : (x.or (y.and v)).without v = .none := by
  obtain ⟨hk, hn⟩ := without_eq_none_iff.1 h
  refine without_eq_none_iff.2 ⟨fun k => ?_, ?_⟩
  · have hk := hk k
    simp only [Lines.core_or, Lines.core_and]
    generalize x.core.get k = a at *
    generalize y.core.get k = b at *
    generalize v.core.get k = c at *
    apply BitVec.eq_of_getLsbD_eq
    intro n hlt
    have bit := congrArg (·.getLsbD n) hk
    simp [hlt] at bit ⊢
    grind
  · simp only [Lines.nonCpu_or, Lines.nonCpu_and]
    revert hn
    cases x.nonCpu <;> cases y.nonCpu <;> cases v.nonCpu <;> decide

/-- Taking lines away leaves no undefined one. -/
theorem without_without_eq_none {x y v : Lines} (h : x.without v = .none) : (x.without y).without v = .none := by
  obtain ⟨hk, hn⟩ := without_eq_none_iff.1 h
  refine without_eq_none_iff.2 ⟨fun k => ?_, ?_⟩
  · rw [Lines.core_without, BitVec.and_assoc, BitVec.and_comm (~~~_), ← BitVec.and_assoc, hk]
    exact BitVec.zero_and
  · rw [Lines.nonCpu_without]
    revert hn
    cases x.nonCpu <;> cases y.nonCpu <;> cases v.nonCpu <;> decide

theorem storesOf_keeps_lines (h : ∀ c, (s.rstCmplx.get c).without (validLines s c) = .none) (c : Cluster) :
    ((storesOf d s r).rstCmplx.get c).without (validLines (storesOf d s r) c) = .none := by
  have same : validLines (storesOf d s r) c = validLines s c := by rw [validLines, storesOf_cfg, validLines]
  rw [same]
  cases r with
  | rstCmplxSet q =>
    simp only [storesOf, storedRstSet, PerCluster.get_set]
    split
    · rename_i e
      subst e
      exact or_without_eq_none (h _)
    · exact h c
  | rstCmplxClr q =>
    simp only [storesOf, storedRstClr, PerCluster.get_set]
    split
    · rename_i e
      subst e
      exact without_without_eq_none (h _)
    · exact h c
  | ramRepair => rw [storesOf_ramRepair]; exact h c
  | tmrPtv => rw [storesOf_tmrPtv]; exact h c
  | _ => exact h c

/-- A write of a tap register of PLL `p` leaves every PLL as many taps. -/
theorem storedTaps_keeps_length {r : Reg} {p : PllId} (hr : r = .pllOutA p ∨ r = .pllOutB p)
    (h : ∀ q, (s.taps.get q).length = s.cfg.ntaps.get q) (q : PllId) :
    ((storedTaps p (r.taps s.cfg) d s).taps.get q).length = s.cfg.ntaps.get q := by
  simp only [storedTaps, PerPll.get_set]
  split
  · rename_i e
    subst e
    rw [length_storeTaps, h]
    rintro ⟨k, f⟩ hx
    obtain ⟨p', hr', hk, -⟩ := mem_taps hx
    obtain rfl : p' = q := by
      obtain rfl | rfl := hr <;> obtain e | e := hr' <;> cases e <;> rfl
    rwa [h]
  · exact h q

theorem storesOf_keeps_taps (h : ∀ p, (s.taps.get p).length = s.cfg.ntaps.get p) (p : PllId) :
    ((storesOf d s r).taps.get p).length = (storesOf d s r).cfg.ntaps.get p := by
  rw [storesOf_cfg]
  cases r with
  | pllOutA q => exact storedTaps_keeps_length (.inl rfl) h p
  | pllOutB q => exact storedTaps_keeps_length (.inr rfl) h p
  | ramRepair => rw [storesOf_ramRepair]; exact h p
  | tmrPtv => rw [storesOf_tmrPtv]; exact h p
  | _ => exact h p

/-- The fields of an absent cluster `E` are 0 (rule R351). -/
def AbsentClusterIsZero (s : State) : Prop :=
  s.cfg.dualCluster = false → s.rstCmplx.e = .none ∧ s.softRst.e = 0 ∧ s.activeCluster = .p

theorem storesOf_keeps_cluster (hp : r.present s.cfg = true) (ho : ownCheck d s r = none)
    (h : AbsentClusterIsZero s) : AbsentClusterIsZero (storesOf d s r) := by
  intro single
  rw [storesOf_cfg] at single
  have zero := h single
  cases r with
  | rstCmplxSet c =>
    cases c with
    | p => exact zero
    | e => exact absurd (hp.symm.trans single) (by simp)
  | rstCmplxClr c =>
    cases c with
    | p => exact zero
    | e => exact absurd (hp.symm.trans single) (by simp)
  | cpuSoftrstCtrl c =>
    cases c with
    | p => exact zero
    | e => exact absurd (hp.symm.trans single) (by simp)
  | clusterControl =>
    refine ⟨zero.1, zero.2.1, ?_⟩
    have performance : clusterOfWord s.cfg.map d ≠ .e := fun e => by simp [ownCheck, e, single] at ho
    show clusterOfWord s.cfg.map d = .p
    cases hc : clusterOfWord s.cfg.map d with
    | p => rfl
    | e => exact absurd hc performance
  | ramRepair => rw [storesOf_ramRepair]; exact zero
  | tmrPtv => rw [storesOf_tmrPtv]; exact zero
  | _ => exact zero

theorem storesOf_keeps_span (ho : ownCheck d s r = none) (h : s.tmrPtv.toNat ≤ s.cfg.tmrMax) :
    (storesOf d s r).tmrPtv.toNat ≤ (storesOf d s r).cfg.tmrMax := by
  rw [storesOf_cfg]
  cases r with
  | tmrPtv =>
    rw [storesOf_tmrPtv]
    simpa [ownCheck] using ho
  | ramRepair => rw [storesOf_ramRepair]; exact h
  | _ => exact h

end

/-- The invariant looks at the registers, the hidden state, the inputs and the configuration only. -/
theorem inv_congr {s t : State} (h : t.toHwState = s.toHwState) (hc : t.cfg = s.cfg) (hs : s.Inv) : t.Inv := by
  obtain ⟨hw⟩ := s
  obtain ⟨hw'⟩ := t
  obtain rfl : hw' = hw := h
  cases hc
  exact ⟨hs.clocks, hs.stable, hs.repair, hs.nonCpu, hs.clamps, hs.timer, hs.stopped, hs.lines, hs.taps, hs.cluster,
    hs.span, hs.fields⟩

/-- A completed write passed its own checks. -/
theorem ownCheck_of_next {r : Reg} {d : Word} {s t : State} (e : exec (.wr d r) s = .next t) :
    ownCheck d s r = none := by
  rw [exec_wr, ifPresent_next] at e
  match hc : ownCheck d s r with
  | none => rfl
  | some (.inl k) => rw [hc] at e; exact nomatch e.2
  | some (.inr x) => rw [hc] at e; exact nomatch e.2

/-- A write that completes keeps the invariant. -/
theorem exec_wr_keeps_inv {r : Reg} {d : Word} {s t : State} (h : s.Inv) (e : exec (.wr d r) s = .next t) : t.Inv := by
  have own := ownCheck_of_next e
  obtain ⟨present, clocks, rfl⟩ := exec_wr_next e
  refine inv_congr (s := storesOf d s r) rfl (by rw [stored_cfg, storesOf_cfg]) ?_
  exact
    { clocks := clocks
      stable := storesOf_keeps_stable h.stable
      repair := storesOf_keeps_repair h.repair
      nonCpu := storesOf_keeps_nonCpu h.nonCpu
      clamps := storesOf_keeps_clamps h.clamps
      timer := storesOf_keeps_timer h.timer
      stopped := storesOf_keeps_stopped h.stopped
      lines := storesOf_keeps_lines h.lines
      taps := storesOf_keeps_taps h.taps
      cluster := storesOf_keeps_cluster present own h.cluster
      span := storesOf_keeps_span own h.span
      fields := by rw [storesOf_cfg]; exact storesOf_fits h.fields }

/-- The value a measurement leaves in `COUNT` fits it, whatever is drawn. -/
theorem finishMeasurement_fits {s : State} (x : Draw) (h : s.toHwState.fits s.cfg.map = true) :
    (finishMeasurement x s).toHwState.fits s.cfg.map = true := by
  rw [HwState.fits_iff] at h ⊢
  obtain ⟨h1, h2, h3, -, h5⟩ := h
  exact ⟨h1, h2, h3, cutTo_holds _ _, h5⟩

/-- A completed toggle keeps the invariant: it drops the removal pending on a clamp it draws anew (rule R193). -/
theorem completeToggle_keeps_inv (x : Draw) {s : State} (h : s.Inv) : (completeToggle x s).Inv := by
  match hi : s.pgPending with
  | none =>
    simp only [completeToggle, hi]
    exact h
  | some i =>
    cases hp : isPowered s i with
    | false =>
      rw [completeToggle_of_unpowered hi hp]
      exact ⟨h.clocks, h.stable, h.repair, h.nonCpu, h.clamps, h.timer, h.stopped, h.lines, h.taps, h.cluster, h.span,
        h.fields⟩
    | true =>
      rw [completeToggle_of_powered hi hp]
      refine ⟨h.clocks, h.stable, h.repair, h.nonCpu, fun j => ?_, h.timer, h.stopped, h.lines, h.taps, h.cluster,
        h.span, h.fields⟩
      simp only [PerPart.get_set]
      split
      · exact fun pending => nomatch pending
      · exact h.clamps j

/-- An enabled agent's effect keeps the invariant. -/
theorem agentEffect_keeps_inv {x : Draw} {a : HwAgent} {s : State} (h : s.Inv) (he : agentEnabled s a = true) :
    (agentEffect x a s).Inv := by
  have clocks := agentEffect_clocks x a h.clocks
  cases a with
  | pll p =>
    refine ⟨clocks, fun q => ?_, h.repair, h.nonCpu, h.clamps, h.timer, h.stopped, h.lines, h.taps, h.cluster, h.span,
      h.fields⟩
    simp only [agentEffect, stabilise, PerPll.get_set]
    split
    · rename_i e
      subst e
      simp only [agentEnabled, Bool.and_eq_true] at he
      exact fun _ => he.1.1
    · exact h.stable q
  | freqDet =>
    exact ⟨clocks, h.stable, h.repair, h.nonCpu, h.clamps, h.timer, h.stopped, h.lines, h.taps, h.cluster, h.span,
      finishMeasurement_fits (s := s) x h.fields⟩
  | powerGate => exact completeToggle_keeps_inv x h
  | clamp i =>
    refine ⟨clocks, h.stable, h.repair, h.nonCpu, fun j => ?_, h.timer, h.stopped, h.lines, h.taps, h.cluster, h.span,
      h.fields⟩
    simp only [agentEffect, releaseClamp, PerPart.get_set]
    split
    · exact fun pending => nomatch pending
    · exact h.clamps j
  | ramRepair =>
    refine ⟨clocks, h.stable, ?_, h.nonCpu, h.clamps, h.timer, h.stopped, h.lines, h.taps, h.cluster, h.span, h.fields⟩
    simp [agentEffect, finishRepair]
  | resetSync c =>
    refine ⟨clocks, h.stable, h.repair, fun q => ?_, h.clamps, h.timer, h.stopped, h.lines, h.taps, h.cluster, h.span,
      h.fields⟩
    simp only [agentEnabled, Bool.and_eq_true, Bool.not_eq_true'] at he
    simp only [agentEffect, syncReset, nonCpuAsserted, PerCluster.get_set]
    split
    · rename_i e
      subst e
      exact fun asserted => nomatch he.1.1.symm.trans asserted
    · exact h.nonCpu q
  | timer =>
    exact ⟨clocks, h.stable, h.repair, h.nonCpu, h.clamps, (fun running => nomatch running), fun _ => rfl, h.lines,
      h.taps, h.cluster, h.span, h.fields⟩
  | appCpu =>
    exact ⟨clocks, h.stable, h.repair, h.nonCpu, h.clamps, h.timer, h.stopped, h.lines, h.taps, h.cluster, h.span,
      h.fields⟩

/-- Settles O41: bookkeeping does not enter the invariant, and writes and agents keep it. -/
theorem stepKeepsInvariant : Obligations.StepKeepsInvariant := by
  intro s t h e
  obtain ⟨-, -, effect⟩ := step_effect e
  cases effect with
  | idle l m ht => exact inv_congr (by rw [ht]) (by rw [ht]) h
  | event l m v _ ht => exact inv_congr (by rw [ht]) (by rw [ht]) h
  | write u w d r l m m' hu e ht =>
    have start : u.Inv := inv_congr (by rw [hu]) (by rw [hu]) h
    exact inv_congr (by rw [ht]) (by rw [ht]) (exec_wr_keeps_inv start e)
  | agent u x a l hu hp he hc ht =>
    have start : u.Inv := inv_congr (by rw [hu]) (by rw [hu]) h
    exact inv_congr (by rw [ht, log_toHwState]) (by rw [ht, log_cfg]) (agentEffect_keeps_inv start he)

end Sys2Proof.Machine
end

section
/-! PROOFS of the rules about every step (obligations O44 to O51, `spec/10_state.md`,
`spec/43_cluster_reset_sequencer.md`, `spec/40_pll_controller.md`). -/

namespace Sys2Proof.Machine

open Sys2Proof

/-- Settles O44: no store and no agent touches an input or the configuration. -/
theorem inputsConstant : Obligations.InputsConstant := by
  intro s t e
  obtain ⟨-, -, effect⟩ := step_effect e
  cases effect with
  | idle l m ht => rw [ht]; exact ⟨rfl, rfl, rfl, rfl, rfl, rfl⟩
  | event l m v _ ht => rw [ht]; exact ⟨rfl, rfl, rfl, rfl, rfl, rfl⟩
  | write u w d r l m m' hu e ht =>
    obtain ⟨-, -, rfl⟩ := exec_wr_next e
    rw [ht, hu]
    exact ⟨stored_cfg .., storesOf_perfBondedOut .., storesOf_effBondedOut .., storesOf_cpuDisable .., storesOf_bir ..,
      storesOf_oscActual ..⟩
  | agent u x a l hu hp he hc ht =>
    have frame := agentEffect_frame x a u
    rw [ht, hu] at *
    exact ⟨congrArg (·.cfg) frame, congrArg (·.perfBondedOut) frame, congrArg (·.effBondedOut) frame,
      congrArg (·.cpuDisable) frame, congrArg (·.bir) frame, congrArg (·.oscActual) frame⟩

/-- Settles O49: each way of stepping records one event or none, and only a run that has no mark steps. -/
theorem historyGrows : Obligations.HistoryGrows := by
  intro s t e
  obtain ⟨hf, hr, effect⟩ := step_effect e
  cases effect with
  | idle l m ht => rw [ht]; exact ⟨.inl rfl, hf, hr⟩
  | event l m v _ ht => rw [ht]; exact ⟨.inr ⟨v, rfl⟩, hf, hr⟩
  | write u w d r l m m' hu e ht =>
    obtain ⟨-, -, rfl⟩ := exec_wr_next e
    rw [ht, hu]
    exact ⟨.inr ⟨_, stored_history ..⟩, (stored_fault ..).trans hf, (stored_refused ..).trans hr⟩
  | agent u x a l hu hp he hc ht =>
    rw [ht, hu]
    exact ⟨.inr ⟨.agent a, by rw [log_history, agentEffect_history]⟩, (agentEffect_fault ..).trans hf,
      (agentEffect_refused ..).trans hr⟩

/-! ### Reset lines -/

/-- Only the two writes of its cluster's pair change a reset line (rules R220, R221). -/
theorem storesOf_rstCmplx {d : Word} {s : State} {r : Reg} (h : ∀ c, r ≠ .rstCmplxSet c ∧ r ≠ .rstCmplxClr c) :
    (storesOf d s r).rstCmplx = s.rstCmplx := by
  cases r with
  | rstCmplxSet c => exact absurd rfl (h c).1
  | rstCmplxClr c => exact absurd rfl (h c).2
  | ramRepair => rw [storesOf_ramRepair]
  | tmrPtv => rw [storesOf_tmrPtv]
  | _ => rfl

/-- A set write deasserts no line. -/
theorem lineAsserted_storedRstSet {d : Word} {s : State} {c q : Cluster} {k : LineKind} {n : Nat}
    (h : lineAsserted s c k n = true) : lineAsserted (storedRstSet q d s) c k n = true := by
  simp only [lineAsserted, storedRstSet, PerCluster.get_set] at h ⊢
  split
  · rename_i e
    subst e
    rw [Lines.core_or, BitVec.getLsbD_or, h, Bool.true_or]
  · exact h

/-- A clear write deasserts the lines it changes, and no other. -/
theorem lineAsserted_storedRstClr (d : Word) (s : State) (c q : Cluster) (k : LineKind) (n : Nat) :
    lineAsserted (storedRstClr q d s) c k n =
      (lineAsserted s c k n && !(decide (c = q) && ((releasedLines s q d).core.get k).getLsbD n)) := by
  simp only [lineAsserted, storedRstClr, PerCluster.get_set]
  split
  · rename_i e
    subst e
    rw [Lines.core_without, BitVec.getLsbD_and, BitVec.getLsbD_not]
    by_cases hn : n < 32
    · simp [hn]
    · simp [BitVec.getLsbD_of_ge _ n (Nat.not_lt.1 hn)]
  · rename_i e
    simp [e]

/-- A line of both sets is one they have in common. -/
theorem meets_of_bit {x y : Lines} {k : LineKind} {n : Nat} (hx : (x.core.get k).getLsbD n = true)
    (hy : (y.core.get k).getLsbD n = true) : x.meets y = true := by
  by_contra h
  have apart := (Lines.meets_eq_false.1 (Bool.eq_false_iff.2 h)).1 k
  have bit : (x.core.get k &&& y.core.get k).getLsbD n = true := by rw [BitVec.getLsbD_and, hx, hy]; rfl
  rw [apart] at bit
  simp at bit

/-- The lines rule R221 keeps from being released are those of the cores other than core 0. -/
theorem otherCoresLines_bit (k : LineKind) {n : Nat} (h1 : 1 ≤ n) (h2 : n < 32) :
    (otherCoresLines.core.get k).getLsbD n = true := by
  simp only [otherCoresLines, Lines.core_ofCores]
  interval_cases n <;> decide

/-- A clear write that releases no secondary core's line changes none. -/
theorem releasedLines_secondary {s : State} {c : Cluster} {d : Word}
    (h : (releasedLines s c d).meets otherCoresLines = false) (k : LineKind) {n : Nat} (hn : 1 ≤ n) :
    ((releasedLines s c d).core.get k).getLsbD n = false := by
  by_cases h2 : n < 32
  · by_contra bit
    exact absurd (meets_of_bit (Bool.eq_true_of_not_eq_false bit) (otherCoresLines_bit k hn h2)) (by rw [h]; decide)
  · exact BitVec.getLsbD_of_ge _ n (Nat.not_lt.1 h2)

/-- A clear write that completes found no secondary core's line and no hazard among the lines it changes. -/
theorem ownCheck_rstCmplxClr {d : Word} {s : State} {c : Cluster} :
    ownCheck d s (.rstCmplxClr c) = none ↔
      (releasedLines s c d).meets otherCoresLines = false ∧ releaseFault s c (releasedLines s c d) = none := by
  rw [ownCheck]
  split <;> simp_all

/-- A write that completes keeps every asserted line of a secondary core. -/
theorem exec_wr_keeps_secondary {d : Word} {r : Reg} {s t : State} (e : exec (.wr d r) s = .next t) {c : Cluster}
    {k : LineKind} {n : Nat} (hn : 1 ≤ n) (h : lineAsserted s c k n = true) : lineAsserted t c k n = true := by
  have own := ownCheck_of_next e
  obtain ⟨-, -, rfl⟩ := exec_wr_next e
  show lineAsserted (storesOf d s r) c k n = true
  by_cases hset : ∃ q, r = .rstCmplxSet q
  · obtain ⟨q, rfl⟩ := hset
    exact lineAsserted_storedRstSet h
  · by_cases hclr : ∃ q, r = .rstCmplxClr q
    · obtain ⟨q, rfl⟩ := hclr
      show lineAsserted (storedRstClr q d s) c k n = true
      rw [lineAsserted_storedRstClr, h, releasedLines_secondary (ownCheck_rstCmplxClr.1 own).1 k hn, Bool.and_false]
      rfl
    · rw [lineAsserted, storesOf_rstCmplx fun q => ⟨fun hq => hset ⟨q, hq⟩, fun hq => hclr ⟨q, hq⟩⟩]
      exact h

/-- Settles O45: no write releases a secondary core's line, and no agent touches a line. -/
theorem secondaryCoresStayHeld : Obligations.SecondaryCoresStayHeld := by
  intro s t c e
  have keeps (k : LineKind) (n : Nat) (hn : 1 ≤ n) (h : lineAsserted s c k n = true) : lineAsserted t c k n = true := by
    obtain ⟨-, -, effect⟩ := step_effect e
    cases effect with
    | idle l m ht => rw [ht]; exact h
    | event l m v _ ht => rw [ht]; exact h
    | write u w d r l m m' hu e ht =>
      have start : lineAsserted u c k n = true := by rw [hu]; exact h
      rw [ht]
      exact exec_wr_keeps_secondary e hn start
    | agent u x a l hu hp he hc ht =>
      rw [ht, hu, lineAsserted, log_toHwState, agentEffect_rstCmplx]
      exact h
  refine ⟨keeps, fun held => ?_⟩
  have cfg := (inputsConstant s t e).1
  rw [secondaryHeld, List.all_eq_true] at held ⊢
  intro n hn
  rw [cfg] at hn
  have old := held n hn
  rw [Bool.or_eq_true, beq_iff_eq] at old ⊢
  exact or_iff_not_imp_left.2 fun pos => keeps .cpu n (by omega) (old.resolve_left pos)

/-- What a clear write that raises no hazard may release (rule R221). -/
theorem releaseFault_none {s : State} {c : Cluster} {m : Lines} (h : releaseFault s c m = none) :
    (m.meets core0Lines = true → isPowered s (cpuPart c) = true) ∧
      (m.meets core0RunLines = true → nonCpuAsserted s c = false ∧ s.nonCpuInReset.get c = false ∧
        cpuGateOpen s = true ∧ (s.cfg.dualCluster = true → s.softRst.p = s.softRst.e)) := by
  unfold releaseFault at h
  split at h
  · cases h
  split at h
  · cases h
  rename_i unpowered
  refine ⟨fun hm => by simpa [hm] using unpowered, fun hm => ?_⟩
  rw [if_pos hm] at h
  split at h
  · cases h
  split at h
  · cases h
  split at h
  · cases h
  · simp_all

/-- A line a clear write changes is one it names. -/
theorem named_of_released {s : State} {c : Cluster} {d : Word} {k : LineKind}
    (h : ((releasedLines s c d).core.get k).getLsbD 0 = true) :
    d.getLsbD (s.cfg.map.place.lines.get k).lo = true := by
  simp only [releasedLines, namedLines, linesOfWord, Lines.core_and, BitVec.getLsbD_and, PerKind.get_ofFn,
    fieldOf_getLsbD, Bool.and_eq_true] at h
  exact h.1.1.1.2

/-- A write that releases a line of core 0 is a clear write of its cluster that passed the checks of rule R221. -/
theorem exec_wr_releases {d : Word} {r : Reg} {s t : State} (e : exec (.wr d r) s = .next t) {c : Cluster}
    {k : LineKind} (h : lineAsserted s c k 0 = true) (h' : lineAsserted t c k 0 = false) :
    r = .rstCmplxClr c ∧ ((releasedLines s c d).core.get k).getLsbD 0 = true ∧
      releaseFault s c (releasedLines s c d) = none := by
  have own := ownCheck_of_next e
  obtain ⟨-, -, rfl⟩ := exec_wr_next e
  have left : lineAsserted (storesOf d s r) c k 0 = false := h'
  by_cases hset : ∃ q, r = .rstCmplxSet q
  · obtain ⟨q, rfl⟩ := hset
    exact absurd (left.symm.trans (lineAsserted_storedRstSet h)) (by simp)
  · by_cases hclr : ∃ q, r = .rstCmplxClr q
    · obtain ⟨q, rfl⟩ := hclr
      have changed : lineAsserted (storedRstClr q d s) c k 0 = false := left
      rw [lineAsserted_storedRstClr, h, Bool.true_and, Bool.not_eq_false', Bool.and_eq_true, decide_eq_true_eq]
        at changed
      obtain ⟨rfl, bit⟩ := changed
      exact ⟨rfl, bit, (ownCheck_rstCmplxClr.1 own).2⟩
    · rw [lineAsserted, storesOf_rstCmplx fun q => ⟨fun hq => hset ⟨q, hq⟩, fun hq => hclr ⟨q, hq⟩⟩] at left
      exact absurd (left.symm.trans h) (by simp)

theorem core0Lines_bit (k : LineKind) : (core0Lines.core.get k).getLsbD 0 = true := by cases k <;> decide

theorem core0RunLines_bit {k : LineKind} (h : k ≠ .wd) : (core0RunLines.core.get k).getLsbD 0 = true := by
  cases k with
  | wd => exact absurd rfl h
  | _ => decide

/-- Settles O46: the released line is one the clear write changes, so the checks of rule R221 were made for it. -/
theorem coreReleaseIsOrdered : Obligations.CoreReleaseIsOrdered := by
  intro s t c k e h h'
  obtain ⟨-, -, effect⟩ := step_effect e
  cases effect with
  | idle l m ht => rw [ht] at h'; exact nomatch h'.symm.trans h
  | event l m v _ ht => rw [ht] at h'; exact nomatch h'.symm.trans h
  | agent u x a l hu hp he hc ht =>
    rw [ht, hu, lineAsserted, log_toHwState, agentEffect_rstCmplx] at h'
    exact nomatch h'.symm.trans h
  | write u w d r l m m' hu e ht =>
    have start : lineAsserted u c k 0 = true := by rw [hu]; exact h
    obtain ⟨rfl, bit, passed⟩ := exec_wr_releases e start (by rw [ht] at h'; exact h')
    obtain ⟨powered, ordered⟩ := releaseFault_none passed
    obtain ⟨-, -, rfl⟩ := exec_wr_next e
    rw [← cpuPart_eq]
    refine ⟨⟨d, ?_, ?_⟩, ?_, fun hk => ?_⟩
    · simpa [hu] using named_of_released bit
    · rw [ht, stored_history, hu]
    · simpa [hu, isPowered] using powered (meets_of_bit bit (core0Lines_bit k))
    · have facts := ordered (meets_of_bit bit (core0RunLines_bit hk))
      rw [hu] at facts
      exact facts

/-! ### Clocks -/

/-- Only a `CLK_ENB` write changes a gate (rule R180). -/
theorem storesOf_clkEnb {d : Word} {s : State} {r : Reg} (h : r ≠ .clkEnb) : (storesOf d s r).clkEnb = s.clkEnb := by
  cases r with
  | clkEnb => exact absurd rfl h
  | ramRepair => rw [storesOf_ramRepair]
  | tmrPtv => rw [storesOf_tmrPtv]
  | _ => rfl

/-- While the CPU gate is open, clean clocks include the CPU clock (rule R182). -/
theorem cclkOk_of_clocks {s : State} (h : clockFault s = none) (hg : cpuGateOpen s = true) : cclkOk s = true := by
  unfold clockFault at h
  split at h
  · cases h
  · split at h
    · cases h
    · simp_all

/-- Settles O47: a `CLK_ENB` write opens the gate only past the hazard of rule R180 and the clock check. -/
theorem gateOpensInOrder : Obligations.GateOpensInOrder := by
  intro s t e h h'
  obtain ⟨-, -, effect⟩ := step_effect e
  cases effect with
  | idle l m ht => rw [ht] at h'; exact nomatch h.symm.trans h'
  | event l m v _ ht => rw [ht] at h'; exact nomatch h.symm.trans h'
  | agent u x a l hu hp he hc ht =>
    rw [ht, hu, cpuGateOpen, log_toHwState, agentEffect_clkEnb] at h'
    exact nomatch h.symm.trans h'
  | write u w d r l m m' hu e ht =>
    have own := ownCheck_of_next e
    obtain ⟨-, clocks, rfl⟩ := exec_wr_next e
    have opened : cpuGateOpen (storesOf d u r) = true := by rw [ht] at h'; exact h'
    have closed : cpuGateOpen u = false := by rw [hu]; exact h
    by_cases hr : r = .clkEnb
    · subst hr
      have named : (gatesOfWord u.cfg.map d).cpu = true := opened
      have good : gateOpensBadly u d = false := by simpa [ownCheck] using own
      rw [gateOpensBadly, closed, named, Bool.not_false, Bool.and_self, Bool.true_and, Bool.or_eq_false_iff,
        Bool.not_eq_false', Bool.not_eq_false'] at good
      rw [hu] at good
      rw [← cpuPart_eq]
      refine ⟨good.1, good.2, ?_⟩
      rw [ht]
      exact cclkOk_of_clocks clocks opened
    · rw [cpuGateOpen, storesOf_clkEnb hr] at opened
      exact nomatch closed.symm.trans opened

/-- Only a `PLL_BASE` write touches what a PLL's output depends on (rules R59, R145). -/
theorem pllOutOk_storesOf {d : Word} {s : State} {r : Reg} {p : PllId} (h : r ≠ .pllBase p) :
    pllOutOk (storesOf d s r) p = pllOutOk s p := by
  cases r with
  | pllBase q =>
    have other : p ≠ q := fun e => h (by rw [e])
    simp only [pllOutOk, storesOf, storedPllBase, PerPll.get_set, other, if_false]
  | ramRepair => rw [storesOf_ramRepair]; rfl
  | tmrPtv => rw [storesOf_tmrPtv]; rfl
  | _ => rfl

/-- A PLL's output after a write of its `PLL_BASE` (rule R146). -/
theorem pllOutOk_storesOf_pllBase (d : Word) (s : State) (p : PllId) :
    pllOutOk (storesOf d s (.pllBase p)) p =
      (d.getLsbD s.cfg.map.place.pll.bypass ||
        (d.getLsbD s.cfg.map.place.pll.enable && ((s.pllBase.get p).enable && s.pllStable.get p))) := by
  simp only [pllOutOk, storesOf, storedPllBase, PerPll.get_set_self, stableAfter_eq, pllBaseOfWord]
  cases d.getLsbD s.cfg.map.place.pll.enable <;> simp

/-- `LOCK` is bit 27 of `PLL_BASE` (rule R35). -/
theorem pllBaseWord_lock (b : PllBase) (lock : Bool) : (pllBaseWord .spec b lock).getLsbD 27 = lock := by
  rw [pllBaseWord_spec]
  simp only [BitVec.getLsbD_setWidth, BitVec.getLsbD_append]
  simp

/-- A read shows its register's read value. -/
theorem gotRead_value {r : Reg} {s t : State} {v : Word} (e : exec (.rd r) s = .next t) (ht : t = s.gotRead r v) :
    v = readValue s r := by
  rw [exec_rd_value, readReg_next] at e
  have same := congrArg (·.master.v) (ht.symm.trans e.2)
  exact same

/-- Settles O48: `LOCK` is computed from `ENABLE` and `pll_stable`, and only the stores of `PLL_BASE` end either. -/
theorem pllOutputKept : Obligations.PllOutputKept := by
  refine ⟨fun s t p v hmap e ht hv => ?_, fun s t p e h h' => ?_⟩
  · have lock : lockBit s p = true := by
      rwa [gotRead_value e ht, readValue, hmap, pllBaseWord_lock] at hv
    rw [lockBit, Bool.and_eq_true, Bool.and_eq_true, Bool.and_eq_true] at lock
    obtain ⟨⟨⟨enabled, stable⟩, -⟩, -⟩ := lock
    rw [ht]
    refine ⟨enabled, stable, ?_⟩
    rw [pllOutOk, gotRead_toHwState, enabled, stable, Bool.and_self, Bool.or_true]
  · obtain ⟨-, -, effect⟩ := step_effect e
    cases effect with
    | idle l m ht => rw [ht] at h'; exact nomatch h'.symm.trans h
    | event l m v _ ht => rw [ht] at h'; exact nomatch h'.symm.trans h
    | agent u x a l hu hp he hc ht =>
      have kept : pllOutOk t p = true := by
        rw [ht, hu]
        exact agentEffect_pllOutOk x a { s with sched := l } p h
      exact nomatch h'.symm.trans kept
    | write u w d r l m m' hu e ht =>
      obtain ⟨-, -, rfl⟩ := exec_wr_next e
      have start : pllOutOk u p = true := by rw [hu]; exact h
      have lost : pllOutOk (storesOf d u r) p = false := by rw [ht] at h'; exact h'
      by_cases hr : r = .pllBase p
      · subst hr
        rw [pllOutOk_storesOf_pllBase, Bool.or_eq_false_iff, hu] at lost
        obtain ⟨bypass, enable⟩ := lost
        refine ⟨d, by rw [ht, stored_history, hu], bypass, fun enabled stable => ?_⟩
        simpa [enabled, stable] using enable
      · rw [pllOutOk_storesOf hr, start] at lost
        cases lost

/-! ### The sequencer and the first fetch -/

theorem rank_succ_le (x : SeqState) : x.rank ≤ x.succ.rank := by cases x <;> decide

theorem runAssign_seq (cfg : Config) (m : Master) (a : Assign) : (runAssign cfg m a).seq = m.seq := by
  cases a <;> rfl

/-- Settling moves `seq` forward only. -/
theorem rank_le_settleOps (cfg : Config) (k : Nat) (ops : List Op) (m : Master) :
    m.seq.rank ≤ (settleOps cfg k ops m).seq.rank := by
  induction ops generalizing k m with
  | nil => cases k <;> exact Nat.le_refl _
  | cons o rest ih =>
    cases k with
    | succ k => exact ih k m
    | zero =>
      cases o with
      | cmd c => exact Nat.le_refl _
      | ctl x =>
        cases x with
        | skipIf c n => exact ih _ m
        | assign a =>
          rw [← runAssign_seq cfg m a]
          exact ih 0 _
        | assert c ch =>
          rw [settleOps]
          split
          · exact ih 0 m
          · exact Nat.le_refl _
        | advance => exact (rank_succ_le m.seq).trans (ih 0 m.advance)

theorem rank_le_settle (s : State) : s.master.seq.rank ≤ s.settle.master.seq.rank := rank_le_settleOps ..

/-- A command that completes leaves `seq` alone. -/
theorem exec_seq {i : Instr} {s t : State} (e : exec i s = .next t) : t.master.seq = s.master.seq := by
  obtain ⟨v, rfl⟩ | ⟨d, -, rfl⟩ := exec_next e
  · rfl
  · rw [stored_master]

/-- A statement that completes leaves `seq` alone. -/
theorem issue_seq {c : Cmd} {s t : State} (e : issue c s = .next t) : t.master.seq = s.master.seq := by
  have bus {f : Except DecodeError Instr} {u : State} (e : busCommand f s = .next u) : u.master.seq = s.master.seq := by
    unfold busCommand refuse at e
    split at e
    · exact exec_seq e
    · cases e
  cases c with
  | raw bytes => exact bus e
  | access width write addr data =>
    simp only [issue, busAccess, refuse] at e
    split at e
    · cases e
    · exact bus e
  | rd r => exact exec_seq e
  | wr r x => exact exec_seq e
  | poll r mask want =>
    obtain ⟨u, hu, rfl⟩ := onNext_next.1 e
    rw [← exec_seq hu, retryPoll]
    split <;> rfl
  | post ch => cases e; rfl
  | refuseUnknown => cases e

theorem rank_le_masterStep {s t : State} (e : masterStep s = .next t) : s.master.seq.rank ≤ t.master.seq.rank := by
  obtain ⟨c, rest, u, -, hu, rfl⟩ | ⟨-, rfl⟩ := issueNext_next.1 e
  · calc s.master.seq.rank ≤ s.settle.master.seq.rank := rank_le_settle s
      _ = u.master.seq.rank := by rw [issue_seq hu]; rfl
      _ ≤ u.settle.master.seq.rank := rank_le_settle u
  · exact rank_le_settle s

/-- Settles O50: only settling changes `seq`, and forward. -/
theorem sequencerNeverGoesBack : Obligations.SequencerNeverGoesBack := by
  intro s t e
  rw [step_next, scheduledStep_next] at e
  obtain ⟨-, -, ⟨-, e⟩ | ⟨rest, -, e⟩ | ⟨a, rest, -, e⟩⟩ := e
  · exact rank_le_masterStep e
  · exact rank_le_masterStep (s := { s with sched := rest }) e
  · obtain ⟨-, -, -, rfl⟩ | ⟨-, rfl⟩ := agentStepWith_next.1 e
    · rw [log_master, agentEffect_master]
    · exact Nat.le_refl _

/-- Only the application CPU's agent sets `entry`. -/
theorem agentEffect_entry {x : Draw} {a : HwAgent} {s : State} (h : a ≠ .appCpu) :
    (agentEffect x a s).entry = s.entry := by
  cases a with
  | appCpu => exact absurd rfl h
  | powerGate =>
    simp only [agentEffect, completeToggle]
    split
    · rfl
    · split <;> rfl
  | _ => rfl

/-- Settles O51: the first fetch is the one step that sets `entry`, and it is enabled only before it. -/
theorem firstFetchOnce : Obligations.FirstFetchOnce := by
  intro s t e
  obtain ⟨-, -, effect⟩ := step_effect e
  have unchanged (h : t.entry = s.entry) :
      (∀ a, s.entry = some a → t.entry = some a) ∧ (∀ a, s.entry = none → t.entry = some a →
        a = s.resetVector ∧ t.resetVector = s.resetVector ∧ (core0Runs s .p = true ∨ core0Runs s .e = true)) :=
    ⟨fun a ha => h.trans ha, fun a hn ha => nomatch (h.trans hn).symm.trans ha⟩
  cases effect with
  | idle l m ht => exact unchanged (by rw [ht])
  | event l m v _ ht => exact unchanged (by rw [ht])
  | write u w d r l m m' hu e ht =>
    obtain ⟨-, -, rfl⟩ := exec_wr_next e
    exact unchanged (by rw [ht, stored_entry, hu])
  | agent u x a l hu hp he hc ht =>
    by_cases ha : a = .appCpu
    · subst ha
      rw [hu] at he
      simp only [agentEnabled, Bool.and_eq_true, Bool.or_eq_true, Option.isNone_iff_eq_none] at he
      obtain ⟨unset, runs⟩ := he
      rw [ht, hu]
      exact ⟨fun v hv => (nomatch unset.symm.trans hv), fun v _ hv => ⟨(Option.some.inj hv).symm, rfl, runs⟩⟩
    · exact unchanged (by rw [ht, log_entry, agentEffect_entry ha, hu])

end Sys2Proof.Machine
end

section
/-! PROOFS of the reads of the reset, tap, power and support registers and of the boot information record (obligations
O12, O14, O15, O16 and O17). -/

namespace Sys2Proof.Machine

open Sys2Proof

/-! The layouts of rule R104 that several fields share. -/

/-- The layout of `RST_CMPLX[c]` (rules R32, R219). -/
theorem linesWord_spec (x : Lines) :
    linesWord .spec x =
      (BitVec.ofBool x.nonCpu ++ 0#4 ++ x.core.cx.setWidth 4 ++ x.core.wd.setWidth 4 ++ x.core.core.setWidth 4 ++
        x.core.dbg.setWidth 4 ++ x.core.cpu.setWidth 4).setWidth 32 := by
  apply BitVec.eq_of_getLsbD_eq
  intro k hk
  simp only [linesWord, LineKind.all, List.foldr, BitVec.getLsbD_or, placeBit_getLsbD _ _ _ hk,
    putField_getLsbD _ _ _ hk, RegMap.spec, PerKind.get, BitVec.getLsbD_append, BitVec.getLsbD_setWidth,
    BitVec.getLsbD_ofBool, BitVec.getLsbD_zero]
  interval_cases k <;> simp

/-- The layout of `PWRGATE_STATUS` (rules R40, R194). -/
theorem partsWord_spec (x : PerPart Bool) :
    partsWord .spec x =
      (BitVec.ofBool x.cpuE ++ BitVec.ofBool x.nonCpuE ++ BitVec.ofBool x.cpu0P ++ BitVec.ofBool x.nonCpuP ++
        BitVec.ofBool x.rail).setWidth 32 := by
  apply BitVec.eq_of_getLsbD_eq
  intro k hk
  simp only [partsWord, Part.all, List.foldr, BitVec.getLsbD_or, placeBit_getLsbD _ _ _ hk, RegMap.spec, PerPart.get,
    BitVec.getLsbD_append, BitVec.getLsbD_setWidth, BitVec.getLsbD_ofBool]
  interval_cases k <;> simp

/-- A flag at bit 0, alone in its register. -/
theorem placeBit_zero (b : Bool) : placeBit 0 b = (BitVec.ofBool b).setWidth 32 := BitVec.shiftLeft_zero _

/-- Two flags, at bits 1 and 0. -/
theorem placeBit_pair (a b : Bool) :
    placeBit 1 a ||| placeBit 0 b = (BitVec.ofBool a ++ BitVec.ofBool b).setWidth 32 := by
  cases a <;> cases b <;> decide

/-- A flag above a field at the bottom of its register, with a gap between. -/
theorem placeBit_or_putField (gap width : Nat) (b : Bool) (x : Word) :
    placeBit (gap + width) b ||| putField ⟨0, width⟩ x =
      (BitVec.ofBool b ++ 0#gap ++ x.setWidth width).setWidth 32 := by
  apply BitVec.eq_of_getLsbD_eq
  intro k hk
  simp only [BitVec.getLsbD_or, placeBit_getLsbD _ _ _ hk, putField_getLsbD _ _ _ hk, BitVec.getLsbD_append,
    BitVec.getLsbD_setWidth, BitVec.getLsbD_ofBool, BitVec.getLsbD_zero, Nat.sub_zero]
  by_cases low : k < width
  · simp [low, hk, show k ≠ gap + width by omega]
  · by_cases mid : k - width < gap
    · simp [low, hk, mid, show k ≠ gap + width by omega]
    · simp [low, hk, mid, show k - width - gap = 0 ↔ k = gap + width by omega]

/-- Settles O12: the layouts of the reset registers, of which those of cluster `P` are always present. -/
theorem resetReads : Obligations.ResetReads := by
  intro s hmap dev lines hgates hlines
  have hline (c : Cluster) : linesWord s.cfg.map (s.rstCmplx.get c) = lines c := by
    rw [hmap, linesWord_spec, hlines]
  have hdev : gatesWord s.cfg.map s.rstDev = dev := by rw [hmap, gatesWord_spec, hgates]
  have hstatus (c : Cluster) : placeBit s.cfg.map.place.nonCpuInReset (s.nonCpuInReset.get c) =
      (BitVec.ofBool (s.nonCpuInReset.get c)).setWidth 32 := by rw [hmap]; exact placeBit_zero _
  refine ⟨?_, ?_, ?_, ?_, ?_, ?_, fun dual => ⟨?_, ?_, ?_, ?_⟩⟩
  · exact readReg_of_present rfl rfl hdev
  · exact readReg_of_present rfl rfl hdev
  · exact readReg_of_present rfl rfl (hline .p)
  · exact readReg_of_present rfl rfl (hline .p)
  · exact readReg_of_present rfl rfl (hstatus .p)
  · exact readReg_of_present rfl rfl rfl
  · exact readReg_of_present rfl dual (hline .e)
  · exact readReg_of_present rfl dual (hline .e)
  · exact readReg_of_present rfl dual (hstatus .e)
  · exact readReg_of_present rfl dual rfl

/-- One tap as its half of a register shows it (rule R150). -/
def tapHalf (t : Tap) : BitVec 16 :=
  (t.ratio.setWidth 8 ++ 0#6 ++ BitVec.ofBool t.clken ++ BitVec.ofBool t.rstn).setWidth 16

theorem tapWord_even {k : Nat} (h : k % 2 = 0) (t : Tap) :
    tapWord (tapPlace k) t = (0#16 ++ tapHalf t).setWidth 32 := by
  apply BitVec.eq_of_getLsbD_eq
  intro i hi
  simp only [tapWord, tapPlace, h, BitVec.getLsbD_or, placeBit_getLsbD _ _ _ hi, putField_getLsbD _ _ _ hi, tapHalf,
    BitVec.setWidth_eq, BitVec.getLsbD_append, BitVec.getLsbD_setWidth, BitVec.getLsbD_ofBool, BitVec.getLsbD_zero]
  interval_cases i <;> simp

theorem tapWord_odd {k : Nat} (h : k % 2 = 1) (t : Tap) :
    tapWord (tapPlace k) t = (tapHalf t ++ 0#16).setWidth 32 := by
  apply BitVec.eq_of_getLsbD_eq
  intro i hi
  simp only [tapWord, tapPlace, h, BitVec.getLsbD_or, placeBit_getLsbD _ _ _ hi, putField_getLsbD _ _ _ hi, tapHalf,
    BitVec.setWidth_eq, BitVec.getLsbD_append, BitVec.getLsbD_setWidth, BitVec.getLsbD_ofBool, BitVec.getLsbD_zero]
  interval_cases i <;> simp

/-- The two halves side by side. -/
theorem halves_or (a b : BitVec 16) :
    ((0#16 ++ a).setWidth 32 : Word) ||| (b ++ 0#16).setWidth 32 = (b ++ a).setWidth 32 := by
  simp only [BitVec.setWidth_eq]
  apply BitVec.eq_of_getLsbD_eq
  intro i hi
  simp only [BitVec.getLsbD_or, BitVec.getLsbD_append, BitVec.getLsbD_zero]
  split <;> simp

/-- The word of a tap register whose first tap the PLL has; the second reads 0 when the PLL does not have it. -/
theorem tapsWord_numbered {n k : Nat} (h : k % 2 = 0) (hn : k < n) (t : Nat → Tap) :
    tapsWord (numbered n k [tapPlace k, tapPlace (k + 1)]) t =
      ((if k + 1 < n then tapHalf (t (k + 1)) else 0) ++ tapHalf (t k)).setWidth 32 := by
  by_cases hn' : k + 1 < n
  · have odd : (k + 1) % 2 = 1 := by omega
    simp only [numbered, hn, hn', if_true, tapsWord, List.foldr, tapWord_even h, tapWord_odd odd]
    exact (congrArg (_ ||| ·) BitVec.or_zero).trans (halves_or _ _)
  · simp only [numbered, hn, hn', if_true, if_false, tapsWord, List.foldr, tapWord_even h]
    exact BitVec.or_zero

/-- Settles O14: a register's two taps are its two halves. -/
theorem tapReads : Obligations.TapReads := by
  intro s p outA outB hrow hp hmap half hhalf
  have hA : exec outA s = readTaps (.pllOutA p) p s := by
    simp only [List.mem_cons, Prod.mk.injEq, List.not_mem_nil, or_false] at hrow
    obtain ⟨rfl, rfl, rfl⟩ | ⟨rfl, rfl, rfl⟩ | ⟨rfl, rfl, rfl⟩ := hrow <;> rfl
  have hB : exec outB s = readTaps (.pllOutB p) p s := by
    simp only [List.mem_cons, Prod.mk.injEq, List.not_mem_nil, or_false] at hrow
    obtain ⟨rfl, rfl, rfl⟩ | ⟨rfl, rfl, rfl⟩ | ⟨rfl, rfl, rfl⟩ := hrow <;> rfl
  have value (k : Nat) : half k = if k < s.cfg.ntaps.get p then tapHalf (tapAt (s.taps.get p) k) else 0 := hhalf k
  refine ⟨fun hn => ?_, fun hn => ?_⟩
  · refine readReg_of_present hA ?_ ?_
    · simp [Reg.present, hp, taps_pllOutA_spec hmap, numbered, hn]
    · rw [taps_pllOutA_spec hmap, tapsWord_numbered rfl hn, value 0, value 1, if_pos hn]
  · refine readReg_of_present hB ?_ ?_
    · simp [Reg.present, hp, taps_pllOutB_spec hmap, numbered, hn]
    · rw [taps_pllOutB_spec hmap, tapsWord_numbered rfl hn, value 2, value 3, if_pos hn]

/-- Settles O15. -/
theorem powerReads : Obligations.PowerReads := by
  intro s hmap
  refine ⟨?_, ?_, ?_, fun present => ?_⟩
  · exact readReg_of_present rfl rfl (by rw [hmap]; exact placeBit_or_putField 3 5 _ _)
  · exact readReg_of_present rfl rfl (by rw [hmap, partsWord_spec])
  · exact readReg_of_present rfl rfl rfl
  · exact readReg_of_present rfl present (by rw [hmap]; exact placeBit_pair _ _)

/-- The layout of `TIMERUS_USEC_CFG` (rule R250). -/
theorem usecWord_spec (dividend divisor : Word) :
    putField RegMap.spec.place.usecDividend dividend ||| putField RegMap.spec.place.usecDivisor divisor =
      (dividend.setWidth 8 ++ divisor.setWidth 8).setWidth 32 := by
  apply BitVec.eq_of_getLsbD_eq
  intro k hk
  simp only [BitVec.getLsbD_or, putField_getLsbD _ _ _ hk, RegMap.spec, BitVec.getLsbD_append, BitVec.getLsbD_setWidth]
  interval_cases k <;> simp

/-- The code of the active cluster (rule R106). -/
theorem clusterWord_spec (c : Cluster) :
    placeBit RegMap.spec.place.activeCluster (clusterBit .spec c) = if c = .p then 0 else 1 := by
  cases c <;> decide

/-- Settles O16. -/
theorem supportReads : Obligations.SupportReads := by
  intro s hmap
  refine ⟨?_, ?_, ?_, ?_, ?_, ?_, ?_, ?_, ?_⟩
  · exact readReg_of_present rfl rfl (by rw [hmap]; exact putField_lo_zero 4 _)
  · exact readReg_of_present rfl rfl (by rw [hmap]; exact placeBit_or_putField 15 16 _ _)
  · exact readReg_of_present rfl rfl (by rw [bondOutWord, hmap]; exact placeBit_pair _ _)
  · exact readReg_of_present rfl rfl (by rw [cpuDisableWord, hmap]; exact placeBit_zero _)
  · exact readReg_of_present rfl rfl (by rw [hmap, clusterWord_spec])
  · exact readReg_of_present rfl rfl rfl
  · exact readReg_of_present rfl rfl (by rw [hmap]; exact placeBit_or_putField 2 29 _ _)
  · exact readReg_of_present rfl rfl (by rw [hmap]; exact placeBit_zero _)
  · exact readReg_of_present rfl rfl (by rw [hmap, usecWord_spec])

/-- Settles O17. -/
theorem bootRecordReads : Obligations.BootRecordReads := by
  intro s hmap
  refine ⟨?_, ?_, ?_, ?_, ?_⟩
  · exact readReg_of_present rfl rfl rfl
  · exact readReg_of_present rfl rfl rfl
  · exact readReg_of_present rfl rfl (by rw [birOscFreqWord, hmap]; exact putField_lo_zero 4 _)
  · exact readReg_of_present rfl rfl rfl
  · exact readReg_of_present rfl rfl (by rw [birFlagsWord, hmap]; exact placeBit_pair _ _)

end Sys2Proof.Machine
end

section
/-! PROOFS of the writes of the read-only, plain, clock and PLL registers (obligations O18 to O24). -/

namespace Sys2Proof.Machine

open Sys2Proof

/-- A write that stores nothing the clock check looks at completes while the clocks are clean. -/
theorem exec_wr_of_plain {r : Reg} {d : Word} {s : State} (hp : r.present s.cfg = true) (ho : ownCheck d s r = none)
    (hr : ¬(r = .sclkBurstPolicy ∨ r = .cclkBurstPolicy ∨ r = .clkEnb ∨
      ∃ p, r = .pllBase p ∨ r = .pllOutA p ∨ r = .pllOutB p))
    (h : clockFault s = none) : exec (.wr d r) s = .next (s.stored r d) :=
  exec_wr_of_clocks hp ho (((clockFault_storesOf d s r).resolve_right hr).trans h)

/-- Settles O18: `RO` registers store nothing, and the record's writes are refused by their own rule. -/
theorem readOnlyWrites : Obligations.ReadOnlyWrites := by
  intro s d
  refine ⟨fun hc => ⟨?_, ?_, fun dual => ?_, ?_, ?_, ?_, ?_⟩, rfl, rfl, rfl, rfl, rfl⟩
  · exact exec_wr_of_plain (r := .oscFreqDetStatus) rfl rfl (by simp) hc
  · exact exec_wr_of_plain (r := .rstCmplxStatus .p) rfl rfl (by simp) hc
  · exact exec_wr_of_plain (r := .rstCmplxStatus .e) dual rfl (by simp) hc
  · exact exec_wr_of_plain (r := .pwrgateStatus) rfl rfl (by simp) hc
  · exact exec_wr_of_plain (r := .bondOut) rfl rfl (by simp) hc
  · exact exec_wr_of_plain (r := .cpuDisable) rfl rfl (by simp) hc
  · exact exec_wr_of_plain (r := .tmrSts) rfl rfl (by simp) hc

/-- Settles O19: these registers have no check of their own and no clock depends on them. -/
theorem plainWrites : Obligations.PlainWrites := by
  intro s d hc
  refine ⟨?_, fun dual => ?_, fun hmap => ⟨?_, ?_, ?_, ?_, ?_, ?_, fun p i hrow hp => ?_⟩⟩
  · exact exec_wr_of_plain (r := .cpuSoftrstCtrl .p) rfl rfl (by simp) hc
  · exact exec_wr_of_plain (r := .cpuSoftrstCtrl .e) dual rfl (by simp) hc
  · refine (exec_wr_of_plain (r := .oscCtrl) rfl rfl (by simp) hc).trans ?_
    rw [State.stored, storesOf, hmap]
    rfl
  · refine (exec_wr_of_plain (r := .oscFreqDet) rfl rfl (by simp) hc).trans ?_
    rw [State.stored, storesOf, hmap]
    rfl
  · refine (exec_wr_of_plain (r := .sclkDivider) rfl rfl (by simp) hc).trans ?_
    rw [State.stored, storesOf, hmap]
    rfl
  · refine (exec_wr_of_plain (r := .cclkDivider) rfl rfl (by simp) hc).trans ?_
    rw [State.stored, storesOf, hmap]
    rfl
  · refine (exec_wr_of_plain (r := .timerusUsecCfg) rfl rfl (by simp) hc).trans ?_
    rw [State.stored, storesOf, hmap]
    rfl
  · exact exec_wr_of_plain (r := .resetVector) rfl rfl (by simp) hc
  · have hi : i = .wr d (.pllMisc p) := by
      simp only [List.mem_cons, Prod.mk.injEq, List.not_mem_nil, or_false] at hrow
      obtain ⟨rfl, rfl⟩ | ⟨rfl, rfl⟩ | ⟨rfl, rfl⟩ := hrow <;> rfl
    rw [hi, exec_wr_of_plain (r := .pllMisc p) hp rfl (by simp) hc, State.stored, storesOf, hmap]
    rfl

/-! ### The clock check, by its two clocks (rule R182) -/

theorem clockFault_eq_none {s : State} :
    clockFault s = none ↔ sclkOk s = true ∧ (cpuGateOpen s = true → cclkOk s = true) := by
  unfold clockFault
  cases sclkOk s <;> cases cpuGateOpen s <;> cases cclkOk s <;> simp

theorem clockFault_of_sys {s : State} (h : sclkOk s = false) : clockFault s = some (.clockLost .sys) := by
  rw [clockFault, h]
  rfl

theorem clockFault_of_cpu {s : State} (hs : sclkOk s = true) (hg : cpuGateOpen s = true) (hc : cclkOk s = false) :
    clockFault s = some (.clockLost .cpu) := by
  rw [clockFault, hs, hg, hc]
  rfl

/-- A selector is a code when its number is (rule R106). -/
theorem eq_code_iff (x : Word) {n : Nat} (h : n < 2 ^ 32) : x = BitVec.ofNat 32 n ↔ x.toNat = n := by
  rw [← BitVec.toNat_inj, BitVec.toNat_ofNat, Nat.mod_eq_of_lt h]

/-- The codes of the taps of the system PLL (rule R106). -/
theorem tapCode_spec {k : Nat} {x : Word} :
    RegMap.spec.sysCode.tap[k]? = some x ↔ k < 4 ∧ x.toNat = 2 + k := by
  match k with
  | 0 | 1 | 2 | 3 => simp [RegMap.spec, ← BitVec.toNat_inj, eq_comm]
  | k + 4 => simp [RegMap.spec]

/-- A clean system clock under the codes of rule R106. -/
theorem sclkOk_spec {s : State} (h : s.cfg.map = .spec) :
    sclkOk s = true ↔ s.sysSrc.toNat = 0 ∨ (s.sysSrc.toNat = 1 ∧ pllOutOk s .sys = true) ∨
      ∃ k < 4, s.sysSrc.toNat = 2 + k ∧ k < s.cfg.ntaps.sys ∧ tapOk s .sys k = true := by
  have osc : s.sysSrc = RegMap.spec.sysCode.osc ↔ s.sysSrc.toNat = 0 := eq_code_iff _ (by decide)
  have pll : s.sysSrc = RegMap.spec.sysCode.pllSys ↔ s.sysSrc.toNat = 1 := eq_code_iff _ (by decide)
  simp only [sclkOk, sysTapOk, h, Bool.or_eq_true, Bool.and_eq_true, beq_iff_eq, osc, pll, List.any_eq_true,
    List.mem_range, tapCode_spec, or_assoc]
  refine or_congr_right (or_congr_right (exists_congr fun k => ?_))
  constructor
  · rintro ⟨has, ⟨lt, code⟩, ok⟩
    exact ⟨lt, code, has, ok⟩
  · rintro ⟨lt, code, has, ok⟩
    exact ⟨has, ⟨lt, code⟩, ok⟩

/-- A clean CPU clock under the codes of rule R106. -/
theorem cclkOk_spec {s : State} (h : s.cfg.map = .spec) :
    cclkOk s = true ↔ s.cpuSrc.toNat = 0 ∨ (s.cpuSrc.toNat = 1 ∧ pllOutOk s .sys = true) ∨
      (s.cpuSrc.toNat = 2 ∧ pllOutOk s .cpu = true) := by
  have osc : s.cpuSrc = RegMap.spec.cpuCode.osc ↔ s.cpuSrc.toNat = 0 := eq_code_iff _ (by decide)
  have pll : s.cpuSrc = RegMap.spec.cpuCode.pllSys ↔ s.cpuSrc.toNat = 1 := eq_code_iff _ (by decide)
  have pllCpu : s.cpuSrc = RegMap.spec.cpuCode.pllCpu ↔ s.cpuSrc.toNat = 2 := eq_code_iff _ (by decide)
  simp only [cclkOk, h, Bool.or_eq_true, Bool.and_eq_true, beq_iff_eq, osc, pll, pllCpu, or_assoc]

/-- A selector field of four bits, widened, has the number it had. -/
theorem selector_toNat (d : Word) : ((d.extractLsb' 0 4).setWidth 32 : Word).toNat = (d.extractLsb' 0 4).toNat := by
  rw [BitVec.toNat_setWidth]
  exact Nat.mod_eq_of_lt (Nat.lt_trans (BitVec.isLt _) (by decide))

/-- The stores of a selector write under the spec's map. -/
theorem storesOf_sclk_spec {s : State} (h : s.cfg.map = .spec) (d : Word) :
    storesOf d s .sclkBurstPolicy = { s with sysSrc := (d.extractLsb' 0 4).setWidth 32 } := by
  rw [storesOf, h]
  rfl

theorem storesOf_cclk_spec {s : State} (h : s.cfg.map = .spec) (d : Word) :
    storesOf d s .cclkBurstPolicy = { s with cpuSrc := (d.extractLsb' 0 4).setWidth 32 } := by
  rw [storesOf, h]
  rfl

/-- Settles O20: the write changes nothing but the selector, so the system clock alone is checked anew. -/
theorem systemClockSwitch : Obligations.SystemClockSwitch := by
  rintro s d sel hmap rfl hcpu
  have clean : sclkOk { s with sysSrc := (d.extractLsb' 0 4).setWidth 32 } = true ↔ _ := sclkOk_spec hmap
  simp only [selector_toNat] at clean
  refine ⟨fun named => ?_, fun unclean => ?_⟩
  · have clocks : clockFault (storesOf d s .sclkBurstPolicy) = none := by
      rw [storesOf_sclk_spec hmap]
      exact clockFault_eq_none.2 ⟨clean.2 named, hcpu⟩
    refine (exec_wr_of_clocks (r := .sclkBurstPolicy) rfl rfl clocks).trans ?_
    rw [State.stored, storesOf_sclk_spec hmap]
  · have lost : clockFault (storesOf d s .sclkBurstPolicy) = some (.clockLost .sys) := by
      rw [storesOf_sclk_spec hmap]
      exact clockFault_of_sys (Bool.eq_false_iff.2 fun ok => unclean (clean.1 ok))
    exact (exec_wr_of_unchecked (r := .sclkBurstPolicy) rfl rfl).trans (store_of_lost lost)

/-- Settles O21: the CPU clock is checked only behind an open gate. -/
theorem cpuClockSwitch : Obligations.CpuClockSwitch := by
  rintro s d sel hmap rfl hsys
  have clean : cclkOk { s with cpuSrc := (d.extractLsb' 0 4).setWidth 32 } = true ↔ _ := cclkOk_spec hmap
  simp only [selector_toNat] at clean
  refine ⟨fun named => ?_, fun unclean => ?_⟩
  · have clocks : clockFault (storesOf d s .cclkBurstPolicy) = none := by
      rw [storesOf_cclk_spec hmap]
      refine clockFault_eq_none.2 ⟨hsys, fun isOpen => clean.2 (named.resolve_left fun closed => ?_)⟩
      exact nomatch closed.symm.trans isOpen
    refine (exec_wr_of_clocks (r := .cclkBurstPolicy) rfl rfl clocks).trans ?_
    rw [State.stored, storesOf_cclk_spec hmap]
  · obtain ⟨isOpen, bad⟩ := not_or.1 unclean
    have lost : clockFault (storesOf d s .cclkBurstPolicy) = some (.clockLost .cpu) := by
      rw [storesOf_cclk_spec hmap]
      exact clockFault_of_cpu hsys (Bool.eq_true_of_not_eq_false isOpen)
        (Bool.eq_false_iff.2 fun ok => bad (clean.1 ok))
    exact (exec_wr_of_unchecked (r := .cclkBurstPolicy) rfl rfl).trans (store_of_lost lost)

/-- Settles O22: the hazard stands before the stores, the clock check after them. -/
theorem clockGateWrite : Obligations.ClockGateWrite := by
  intro s d hmap hsys
  have named : (gatesOfWord s.cfg.map d).cpu = d.getLsbD 0 := by rw [hmap]; rfl
  have stores : storesOf d s .clkEnb = { s with clkEnb :=
      { cpu := d.getLsbD 0, timer := d.getLsbD 1, gpio := d.getLsbD 2, memc := d.getLsbD 3, dma0 := d.getLsbD 4,
        dma1 := d.getLsbD 5 } } := by
    rw [storesOf, hmap, gatesOfWord_spec]
  have hazard : gateOpensBadly s d = true ↔ cpuGateOpen s = false ∧ d.getLsbD 0 = true ∧
      (isPowered s (if s.activeCluster = .p then .cpu0P else .cpuE) = false ∨
        lineAsserted s s.activeCluster .cpu 0 = false) := by
    simp [gateOpensBadly, named, cpuPart_eq, and_assoc]
  by_cases bad : gateOpensBadly s d = true
  · rw [if_pos (hazard.1 bad)]
    exact exec_wr_of_hazard (r := .clkEnb) rfl (by rw [ownCheck, if_pos bad])
  · have own : ownCheck d s .clkEnb = none := by rw [ownCheck, if_neg bad]
    rw [if_neg fun h => bad (hazard.2 h)]
    split
    · rename_i unclean
      refine (exec_wr_of_unchecked (r := .clkEnb) rfl own).trans (store_of_lost ?_)
      rw [stores]
      exact clockFault_of_cpu hsys unclean.1 unclean.2
    · rename_i clean
      refine (exec_wr_of_clocks (r := .clkEnb) rfl own ?_).trans (by rw [State.stored, stores])
      rw [stores]
      refine clockFault_eq_none.2 ⟨hsys, fun isOpen => ?_⟩
      exact Bool.eq_true_of_not_eq_false fun bad => clean ⟨isOpen, bad⟩

/-- The divider hazard of rule R145. -/
theorem reprogramsEnabled_iff {old new : PllBase} :
    reprogramsEnabled old new = true ↔
      old.enable = true ∧ new.enable = true ∧ (new.divm, new.divn, new.divp) ≠ (old.divm, old.divn, old.divp) := by
  simp only [reprogramsEnabled, Bool.and_eq_true, Bool.not_eq_true', ne_eq, Prod.mk.injEq, and_assoc]
  refine and_congr_right fun _ => and_congr_right fun _ => ?_
  rw [← Bool.not_eq_true]
  simp only [Bool.and_eq_true, beq_iff_eq, and_assoc]

/-- Settles O23: past the divider hazard the stores are made, and the clock check sees them. -/
theorem pllBaseWrite : Obligations.PllBaseWrite := by
  rintro s d p i hrow hp hmap old new t rfl hnew ht
  obtain rfl : i = .wr d (.pllBase p) := by
    simp only [List.mem_cons, Prod.mk.injEq, List.not_mem_nil, or_false] at hrow
    obtain ⟨rfl, rfl⟩ | ⟨rfl, rfl⟩ | ⟨rfl, rfl⟩ := hrow <;> rfl
  have hword : pllBaseOfWord s.cfg.map d = new := by rw [hmap, hnew, pllBaseOfWord_spec]
  have stores : storesOf d s (.pllBase p) = t := by rw [storesOf_pllBase_spec hmap, ht, hnew]
  by_cases bad : reprogramsEnabled (s.pllBase.get p) new = true
  · rw [if_pos (reprogramsEnabled_iff.1 bad)]
    exact exec_wr_of_hazard (r := .pllBase p) hp (by rw [ownCheck, hword, if_pos bad])
  · have own : ownCheck d s (.pllBase p) = none := by rw [ownCheck, hword, if_neg bad]
    rw [if_neg fun h => bad (reprogramsEnabled_iff.2 h)]
    refine ⟨fun clean => ?_, fun k lost => ?_⟩
    · rw [exec_wr_of_clocks (r := .pllBase p) hp own (stores ▸ clean), State.stored, stores]
    · rw [exec_wr_of_unchecked (r := .pllBase p) hp own, store_of_lost (stores ▸ lost)]

/-- The hazard of rule R151 for tap `k` under the spec's map. -/
theorem tapHazard_iff {s : State} {p : PllId} {d : Word} {k : Nat} :
    tapHazard s p d (k, tapPlace k) = true ↔
      ((tapFromWord d k).clken = true ∨ (tapFromWord d k).rstn = true) ∧
        ((tapAt (s.taps.get p) k).clken, (tapAt (s.taps.get p) k).rstn) ≠
          ((tapFromWord d k).clken, (tapFromWord d k).rstn) ∧ pllOutOk s p = false := by
  simp only [tapHazard, tapOfWord_tapPlace]
  generalize (tapFromWord d k).clken = a
  generalize (tapFromWord d k).rstn = b
  generalize (tapAt (s.taps.get p) k).clken = a'
  generalize (tapAt (s.taps.get p) k).rstn = b'
  generalize pllOutOk s p = ok
  revert a b a' b' ok
  decide

/-- The first of two numbered taps that has a property, if one has. -/
theorem find_numbered {n a : Nat} (ha : a < n) {P : Nat × TapPlaces → Bool} :
    (numbered n a [tapPlace a, tapPlace (a + 1)]).find? P =
      if P (a, tapPlace a) = true then some (a, tapPlace a)
      else if a + 1 < n ∧ P (a + 1, tapPlace (a + 1)) = true then some (a + 1, tapPlace (a + 1))
      else none := by
  by_cases hb : a + 1 < n
  · simp only [numbered, ha, hb, if_true, List.find?, true_and]
    cases P (a, tapPlace a) <;> cases P (a + 1, tapPlace (a + 1)) <;> rfl
  · simp only [numbered, ha, hb, if_true, if_false, List.find?, false_and]
    cases P (a, tapPlace a) <;> rfl

/-- Settles O24: the first held tap with a hazard raises it, and else the held taps are stored. -/
theorem tapWrite : Obligations.TapWrite := by
  intro s d p a b r i hrow hp hmap ha hl new bad t hnew hbad ht
  obtain rfl : new = tapFromWord d := funext hnew
  obtain ⟨hr, hi, rfl, hheld, hholds, hcheck⟩ : (r = .pllOutA p ∨ r = .pllOutB p) ∧ i = .wr d r ∧ b = a + 1 ∧
      r.taps s.cfg = numbered (s.cfg.ntaps.get p) a [tapPlace a, tapPlace (a + 1)] ∧
      (∀ k, k = a ∨ k = a + 1 ↔ k < 4 ∧ (r = .pllOutA p ↔ k < 2)) ∧
      ownCheck d s r = ((r.taps s.cfg).find? (tapHazard s p d)).map fun x => .inl (.tapEnabledBeforeBase p x.1) := by
    simp only [List.mem_cons, Prod.mk.injEq, List.not_mem_nil, or_false] at hrow
    have first (k : Nat) : k = 0 ∨ k = 0 + 1 ↔ k < 4 ∧ (Reg.pllOutA p = .pllOutA p ↔ k < 2) := by simp; omega
    have second (k : Nat) : k = 2 ∨ k = 2 + 1 ↔ k < 4 ∧ (Reg.pllOutB p = .pllOutA p ↔ k < 2) := by simp; omega
    have inA := taps_pllOutA_spec hmap p
    have inB := taps_pllOutB_spec hmap p
    obtain ⟨rfl, rfl, rfl, rfl, rfl⟩ | ⟨rfl, rfl, rfl, rfl, rfl⟩ | ⟨rfl, rfl, rfl, rfl, rfl⟩ |
      ⟨rfl, rfl, rfl, rfl, rfl⟩ | ⟨rfl, rfl, rfl, rfl, rfl⟩ | ⟨rfl, rfl, rfl, rfl, rfl⟩ := hrow
    · exact ⟨.inl rfl, rfl, rfl, inA, first, rfl⟩
    · exact ⟨.inr rfl, rfl, rfl, inB, second, rfl⟩
    · exact ⟨.inl rfl, rfl, rfl, inA, first, rfl⟩
    · exact ⟨.inr rfl, rfl, rfl, inB, second, rfl⟩
    · exact ⟨.inl rfl, rfl, rfl, inA, first, rfl⟩
    · exact ⟨.inr rfl, rfl, rfl, inB, second, rfl⟩
  rw [hi]
  have present : r.present s.cfg = true := by
    have filled : (r.taps s.cfg).isEmpty = false := by rw [hheld, numbered, if_pos ha]; rfl
    obtain rfl | rfl := hr <;> simp [Reg.present, hp, filled]
  have stores : storesOf d s r = t := by
    rw [storesOf_taps_spec hmap hr d hl, ht]
    simp only [hholds]
  have hazard (k : Nat) : bad k ↔ k < s.cfg.ntaps.get p ∧ tapHazard s p d (k, tapPlace k) = true := by
    rw [hbad, tapHazard_iff]
  rw [hheld, find_numbered ha] at hcheck
  have unchecked (first : ¬bad a) (second : ¬bad (a + 1)) : ownCheck d s r = none := by
    rw [hcheck, if_neg fun h => first ((hazard a).2 ⟨ha, h⟩), if_neg fun h => second ((hazard (a + 1)).2 h)]
    rfl
  refine ⟨fun first => ?_, fun first second => ?_, fun first second clean => ?_, fun first second k lost => ?_⟩
  · rw [if_pos ((hazard a).1 first).2] at hcheck
    exact exec_wr_of_hazard present hcheck
  · rw [if_neg fun h => first ((hazard a).2 ⟨ha, h⟩), if_pos ((hazard (a + 1)).1 second)] at hcheck
    exact exec_wr_of_hazard present hcheck
  · rw [exec_wr_of_clocks present (unchecked first second) (stores ▸ clean), State.stored, stores]
  · rw [exec_wr_of_unchecked present (unchecked first second), store_of_lost (stores ▸ lost)]

end Sys2Proof.Machine
end

section
/-! PROOFS of the writes of the power, reset, timer and cluster registers (obligations O25 to O27, O29 to O33). -/

namespace Sys2Proof.Machine

open Sys2Proof

/-! ### Power partitions -/

/-- A `PARTID` names the partition whose number it is (rule R106). -/
theorem partOfId_spec {n : Word} {i : Part} : partOfId .spec n = some i ↔ n.toNat = RegMap.spec.partId.get i := by
  have distinct : ∀ i j : Part, RegMap.spec.partId.get j = RegMap.spec.partId.get i → j = i := by
    intro i j
    cases i <;> cases j <;> simp [RegMap.spec, PerPart.get]
  constructor
  · intro h
    have number : RegMap.spec.partId.get i = n.toNat := by simpa using List.find?_some h
    exact number.symm
  · intro h
    cases hf : partOfId .spec n with
    | none => simpa [h] using List.find?_eq_none.1 hf i i.mem_all
    | some j =>
      have hj : RegMap.spec.partId.get j = n.toNat := by simpa using List.find?_some hf
      rw [distinct i j (hj.trans h)]

/-- Every number below five is a partition's. -/
theorem partOfId_none_of_ge {n : Word} (h : 5 ≤ n.toNat) : partOfId .spec n = none := by
  cases hf : partOfId .spec n with
  | none => rfl
  | some i =>
    have hn := partOfId_spec.1 hf
    have small : RegMap.spec.partId.get i < 5 := by cases i <;> decide
    omega

/-- A `PARTID` field of five bits, widened, has the number it had. -/
theorem partIdOfWord_toNat (d : Word) : (partIdOfWord .spec d).toNat = (d.extractLsb' 0 5).toNat := by
  show (((d.extractLsb' 0 5).setWidth 32 : Word)).toNat = _
  rw [BitVec.toNat_setWidth]
  exact Nat.mod_eq_of_lt (Nat.lt_trans (BitVec.isLt _) (by decide))

/-- The two dependencies of rule R202. -/
theorem breaksDependency_iff {s : State} {i : Part} :
    breaksDependency s i = true ↔
      ((i = .nonCpuP ∨ i = .cpu0P) ∧ isPowered s i = false ∧ isPowered s .rail = false) ∨
        (i = .rail ∧ isPowered s .rail = true ∧ (isPowered s .nonCpuP = true ∨ isPowered s .cpu0P = true)) := by
  cases i <;> simp [breaksDependency]

/-- Settles O25: the checks of rule R192 in their order. -/
theorem toggleWrite : Obligations.ToggleWrite := by
  intro s d hmap hc number hnumber
  obtain rfl : number = RegMap.spec.partId := hnumber
  have hstart : startsToggleWord s.cfg.map d = d.getLsbD 8 := by rw [hmap]; rfl
  have hstores : storesOf d s .pwrgateToggle =
      { s with
        partId := (d.extractLsb' 0 5).setWidth 32
        pgPending := if d.getLsbD 8 then partOfId .spec (partIdOfWord .spec d) else s.pgPending } := by
    rw [storesOf, storedToggle, hstart, hmap]
    rfl
  have hcheck : ownCheck d s .pwrgateToggle =
      if d.getLsbD 8 then
        (partOfId .spec (partIdOfWord .spec d)).elim (some (.inr .reservedPartition)) fun i =>
          if toggleBusy s then some (.inl .toggleWhilePending)
          else if breaksDependency s i then some (.inl (.powerDependency i)) else none
      else none := by
    rw [ownCheck, hstart, hmap]
    cases partOfId .spec (partIdOfWord .spec d) <;> rfl
  refine ⟨fun idle => ?_, fun start reserved => ?_, fun i start names => ?_⟩
  · refine (exec_wr_of_plain (r := .pwrgateToggle) rfl (by rw [hcheck, idle]; rfl) (by simp) hc).trans ?_
    rw [State.stored, hstores, idle]
    rfl
  · rw [← partIdOfWord_toNat] at reserved
    exact exec_wr_of_refusal (r := .pwrgateToggle) rfl (by rw [hcheck, start, partOfId_none_of_ge reserved]; rfl)
  · rw [← partIdOfWord_toNat] at names
    rw [start, partOfId_spec.2 names] at hcheck
    simp only [if_true, Option.elim_some] at hcheck
    by_cases busy : s.pgPending ≠ none
    · have : toggleBusy s = true := by simpa [toggleBusy, Option.isSome_iff_ne_none] using busy
      rw [if_pos busy]
      exact exec_wr_of_hazard (r := .pwrgateToggle) rfl (by rw [hcheck, if_pos this])
    · have : ¬toggleBusy s = true := by simpa [toggleBusy, Option.isSome_iff_ne_none] using busy
      rw [if_neg busy]
      rw [if_neg this] at hcheck
      split
      · rename_i dependent
        exact exec_wr_of_hazard (r := .pwrgateToggle) rfl
          (by rw [hcheck, if_pos (breaksDependency_iff.2 (.inl dependent))])
      · split
        · rename_i dependent
          obtain rfl := dependent.1
          exact exec_wr_of_hazard (r := .pwrgateToggle) rfl
            (by rw [hcheck, if_pos (breaksDependency_iff.2 (.inr dependent))])
        · rename_i up down
          rw [if_neg fun h => (breaksDependency_iff.1 h).elim up down] at hcheck
          refine (exec_wr_of_plain (r := .pwrgateToggle) rfl hcheck (by simp) hc).trans ?_
          rw [State.stored, hstores, start, partOfId_spec.2 names]
          rfl

/-- The lowest partition with a property is found (rule R197, whose loop runs upward). -/
theorem find_lowest_part {P : Part → Bool} {i : Part} (hi : P i = true)
    (hlow : ∀ j, RegMap.spec.partId.get j < RegMap.spec.partId.get i → P j = false) : Part.all.find? P = some i := by
  cases i <;> simp_all [Part.all, RegMap.spec, PerPart.get]

/-- Settles O26: the lowest named partition without power raises the hazard; with none the removals become pending. -/
theorem clampWrite : Obligations.ClampWrite := by
  intro s d hmap hc number hnumber
  obtain rfl : number = RegMap.spec.partId := hnumber
  have hnames (i : Part) : namesPart s.cfg.map d i = d.getLsbD (RegMap.spec.partId.get i) := by rw [hmap]; rfl
  refine ⟨fun powered => ⟨(storedClamps d s).clampPending, fun i => ?_, ?_⟩, fun i named unpowered lowest => ?_⟩
  · simp only [storedClamps, PerPart.get_ofFn, hnames]
  · have all : unpoweredClamp s d = none := by
      refine List.find?_eq_none.2 fun i _ => ?_
      rw [hnames]
      simpa using powered i
    exact exec_wr_of_plain (r := .removeClampingCmd) rfl (by rw [ownCheck, all]; rfl) (by simp) hc
  · have found : unpoweredClamp s d = some i := by
      refine find_lowest_part (by rw [hnames, named, unpowered]; rfl) fun j hj => ?_
      rw [hnames]
      simpa using lowest j hj
    exact exec_wr_of_hazard (r := .removeClampingCmd) rfl (by rw [ownCheck, found]; rfl)

/-- Settles O27: the three cases are those of the stores. -/
theorem repairWrite : Obligations.RepairWrite := by
  intro s d hmap hc hp
  refine (exec_wr_of_plain (r := .ramRepair) hp rfl (by simp) hc).trans ?_
  rw [State.stored, storesOf, storedRepair, hmap]
  show Host.Outcome.next (State.logWrite (if (!d.getLsbD 0) = true then _ else if (!s.ramReq) = true then _ else s) _ _)
    = _
  simp only [Bool.not_eq_true']

/-! ### Reset lines -/

/-- Settles O29. -/
theorem deviceResetClear : Obligations.DeviceResetClear := by
  intro s d hmap hc
  have hazard : complexUnpowered s d = true ↔ d.getLsbD 0 = true ∧ s.rstDev.cpu = true ∧
      isPowered s (if s.activeCluster = .p then .nonCpuP else .nonCpuE) = false := by
    have named : (gatesOfWord s.cfg.map d).cpu = d.getLsbD 0 := by rw [hmap]; rfl
    simp [complexUnpowered, named, nonCpuPart_eq, and_assoc]
  by_cases bad : complexUnpowered s d = true
  · rw [if_pos (hazard.1 bad)]
    exact exec_wr_of_hazard (r := .rstDevClr) rfl (by rw [ownCheck, if_pos bad])
  · rw [if_neg fun h => bad (hazard.2 h)]
    refine (exec_wr_of_plain (r := .rstDevClr) rfl (by rw [ownCheck, if_neg bad]) (by simp) hc).trans ?_
    rw [State.stored, storesOf, hmap]
    rfl

/-- The lowest bits of the lines' fields (rule R104). -/
def lineLowest : PerKind Nat := { cpu := 0, dbg := 4, core := 8, wd := 12, cx := 16 }

/-- The lines a word names, bit by bit, under the spec's map (rules R32, R215). -/
theorem namedLines_bit {s : State} (h : s.cfg.map = .spec) (c : Cluster) (d : Word) (k : LineKind) (n : Nat) :
    ((namedLines s c d).core.get k).getLsbD n =
      (decide (n < 4) && decide (n < s.cfg.ncores.get c) && d.getLsbD (lineLowest.get k + n)) := by
  have place : RegMap.spec.place.lines.get k = ⟨lineLowest.get k, 4⟩ := by cases k <;> rfl
  simp only [namedLines, validLines, definedLines, linesOfWord, Lines.core_and, PerKind.get_ofFn, Lines.core_ofCores,
    BitVec.getLsbD_and, fieldOf_getLsbD, h, place]
  by_cases hn : n < 4
  · rw [presentCores_getLsbD _ _ (by omega)]
    simp [hn, show n < 32 by omega, Bool.and_comm]
  · simp [hn]

theorem namedLines_nonCpu {s : State} (h : s.cfg.map = .spec) (c : Cluster) (d : Word) :
    (namedLines s c d).nonCpu = d.getLsbD 24 := by
  simp only [namedLines, Lines.nonCpu_and, validLines, definedLines, Lines.nonCpu_ofCores, Bool.and_true, linesOfWord, h]
  rfl

/-- Settles O30: the set law, line by line. -/
theorem clusterResetSet : Obligations.ClusterResetSet := by
  rintro s d c i hrow hp hmap hc lowest rfl
  have hi : i = .wr d (.rstCmplxSet c) := by
    simp only [List.mem_cons, Prod.mk.injEq, List.not_mem_nil, or_false] at hrow
    obtain ⟨rfl, rfl⟩ | ⟨rfl, rfl⟩ := hrow <;> rfl
  refine ⟨(s.rstCmplx.get c).or (namedLines s c d), fun k n => ?_, ?_, ?_⟩
  · rw [Lines.core_or, BitVec.getLsbD_or, namedLines_bit hmap]
    rfl
  · rw [Lines.nonCpu_or, namedLines_nonCpu hmap]
    rfl
  · rw [hi, exec_wr_of_plain (r := .rstCmplxSet c) hp rfl (by simp) hc, State.stored, storesOf, storedRstSet,
      namedLines_nonCpu hmap]

/-- The lines a clear write changes, bit by bit. -/
theorem releasedLines_bit {s : State} (h : s.cfg.map = .spec) (c : Cluster) (d : Word) (k : LineKind) (n : Nat) :
    ((releasedLines s c d).core.get k).getLsbD n =
      (lineAsserted s c k n && decide (n < 4) && decide (n < s.cfg.ncores.get c) &&
        d.getLsbD (lineLowest.get k + n)) := by
  rw [releasedLines, Lines.core_and, BitVec.getLsbD_and, namedLines_bit h, Bool.and_comm]
  simp only [lineAsserted, Bool.and_assoc]

theorem releasedLines_nonCpu {s : State} (h : s.cfg.map = .spec) (c : Cluster) (d : Word) :
    (releasedLines s c d).nonCpu = (nonCpuAsserted s c && d.getLsbD 24) := by
  rw [releasedLines, Lines.nonCpu_and, namedLines_nonCpu h, Bool.and_comm]
  rfl

/-- Two sets have a line of some core in common exactly when some bit is set in both. -/
theorem meets_iff {x y : Lines} (hy : y.nonCpu = false) :
    x.meets y = true ↔ ∃ k n, (x.core.get k).getLsbD n = true ∧ (y.core.get k).getLsbD n = true := by
  constructor
  · intro h
    by_contra none
    refine absurd h (Bool.eq_false_iff.1 (Lines.meets_eq_false.2 ⟨fun k => ?_, by rw [hy, Bool.and_false]⟩))
    apply BitVec.eq_of_getLsbD_eq
    intro n _
    rw [BitVec.getLsbD_and]
    cases hx : (x.core.get k).getLsbD n with
    | false => simp
    | true => cases hyb : (y.core.get k).getLsbD n with
      | false => simp
      | true => exact absurd ⟨k, n, hx, hyb⟩ none
  · rintro ⟨k, n, hx, hyb⟩
    exact meets_of_bit hx hyb

theorem core0Lines_getLsbD (k : LineKind) (n : Nat) : (core0Lines.core.get k).getLsbD n = decide (n = 0) := by
  have one : core0Lines.core.get k = 1#32 := by cases k <;> rfl
  rw [one, BitVec.getLsbD_one]
  simp

theorem core0RunLines_getLsbD (k : LineKind) (n : Nat) :
    (core0RunLines.core.get k).getLsbD n = (decide (n = 0) && k != .wd) := by
  have lines : core0RunLines.core.get k = if k = .wd then 0#32 else 1#32 := by cases k <;> rfl
  rw [lines]
  cases k <;> simp [BitVec.getLsbD_one]

/-- A line of core 0. -/
theorem meets_core0Lines {m : Lines} :
    m.meets core0Lines = true ↔ ∃ k ∈ LineKind.all, (m.core.get k).getLsbD 0 = true := by
  rw [meets_iff rfl]
  simp only [core0Lines_getLsbD, decide_eq_true_eq]
  exact ⟨fun ⟨k, n, bit, zero⟩ => ⟨k, k.mem_all, zero ▸ bit⟩, fun ⟨k, _, bit⟩ => ⟨k, 0, bit, rfl⟩⟩

/-- A line of core 0 other than its watchdog's. -/
theorem meets_core0RunLines {m : Lines} :
    m.meets core0RunLines = true ↔ ∃ k ∈ [LineKind.cpu, .dbg, .core, .cx], (m.core.get k).getLsbD 0 = true := by
  rw [meets_iff rfl]
  simp only [core0RunLines_getLsbD, Bool.and_eq_true, decide_eq_true_eq]
  have kinds (k : LineKind) : k ∈ [LineKind.cpu, .dbg, .core, .cx] ↔ (k != .wd) = true := by cases k <;> decide
  simp only [kinds]
  exact ⟨fun ⟨k, n, bit, zero, run⟩ => ⟨k, run, zero ▸ bit⟩, fun ⟨k, run, bit⟩ => ⟨k, 0, bit, rfl, run⟩⟩

/-- A line of a secondary core, among lines of four cores. -/
theorem meets_otherCoresLines {m : Lines} (h : ∀ k n, (m.core.get k).getLsbD n = true → n < 4) :
    m.meets otherCoresLines = true ↔
      ∃ k ∈ LineKind.all, ∃ n ∈ ([1, 2, 3] : List Nat), (m.core.get k).getLsbD n = true := by
  rw [meets_iff rfl]
  constructor
  · rintro ⟨k, n, bit, other⟩
    have small := h k n bit
    refine ⟨k, k.mem_all, n, ?_, bit⟩
    match n with
    | 0 => simp [otherCoresLines] at other
    | 1 | 2 | 3 => simp
  · rintro ⟨k, -, n, hn, bit⟩
    simp only [List.mem_cons, List.not_mem_nil, or_false] at hn
    exact ⟨k, n, bit, otherCoresLines_bit k (by omega) (by omega)⟩

/-- The exemption of rule R221 for release step 4. -/
theorem crossClear_iff {s : State} {c : Cluster} {m : Lines} (h : m.nonCpu = true) :
    crossClear s c m = true ↔ s.cfg.dualCluster = true ∧ s.cfg.crossClusterClear = true ∧ c ≠ s.activeCluster ∧
      ∀ k ∈ LineKind.all, m.core.get k = 0 := by
  have only : m = nonCpuLine ↔ ∀ k ∈ LineKind.all, m.core.get k = 0 := by
    refine ⟨?_, fun zero => Lines.ext_get (fun k => ?_) h⟩
    · rintro rfl k -
      exact Lines.core_ofCores _ _ k
    · rw [zero k k.mem_all]
      exact (Lines.core_ofCores _ _ k).symm
  simp [crossClear, only, and_assoc]

/-- The chain of rule R221, as its conditions on the lines the write changes. -/
theorem releaseFault_eq (s : State) (c : Cluster) (m : Lines) :
    releaseFault s c m =
      if m.nonCpu = true ∧ isPowered s (nonCpuPart c) = false ∧
          ¬(s.cfg.dualCluster = true ∧ s.cfg.crossClusterClear = true ∧ c ≠ s.activeCluster ∧
            ∀ k ∈ LineKind.all, m.core.get k = 0) then some (.resetReleasedUnpowered (.nonCpu c))
      else if (∃ k ∈ LineKind.all, (m.core.get k).getLsbD 0 = true) ∧ isPowered s (cpuPart c) = false then
        some (.resetReleasedUnpowered (.core0 c))
      else if (∃ k ∈ [LineKind.cpu, .dbg, .core, .cx], (m.core.get k).getLsbD 0 = true) ∧
          (nonCpuAsserted s c = true ∨ s.nonCpuInReset.get c = true) then some (.core0ReleasedBeforeNonCpu c)
      else if (∃ k ∈ [LineKind.cpu, .dbg, .core, .cx], (m.core.get k).getLsbD 0 = true) ∧ cpuGateOpen s = false then
        some (.core0ReleasedWithoutClock c)
      else if (∃ k ∈ [LineKind.cpu, .dbg, .core, .cx], (m.core.get k).getLsbD 0 = true) ∧
          s.cfg.dualCluster = true ∧ s.softRst.p ≠ s.softRst.e then some .softRstNotMirrored
      else none := by
  have nonCpu : (m.nonCpu && !isPowered s (nonCpuPart c) && !crossClear s c m) = true ↔
      m.nonCpu = true ∧ isPowered s (nonCpuPart c) = false ∧
        ¬(s.cfg.dualCluster = true ∧ s.cfg.crossClusterClear = true ∧ c ≠ s.activeCluster ∧
          ∀ k ∈ LineKind.all, m.core.get k = 0) := by
    by_cases hm : m.nonCpu = true
    · rw [← crossClear_iff hm]
      simp [hm]
    · simp [hm]
  unfold releaseFault
  refine if_congr nonCpu rfl (if_congr ?_ rfl ?_)
  · rw [Bool.and_eq_true, meets_core0Lines, Bool.not_eq_true']
  · by_cases run : m.meets core0RunLines = true
    · have named := meets_core0RunLines.1 run
      simp only [run, named, if_true, true_and, Bool.or_eq_true, Bool.not_eq_true', Bool.and_eq_true, bne_iff_ne]
    · have unnamed := mt meets_core0RunLines.2 run
      simp only [run, unnamed, if_false, false_and, Bool.false_eq_true]

/-- Settles O31: the chain of rule R221, check by check, on the lines the write changes. -/
theorem clusterResetClear : Obligations.ClusterResetClear := by
  rintro s d c i hrow hp hmap hc lowest m rfl hbits hline
  have hi : i = .wr d (.rstCmplxClr c) := by
    simp only [List.mem_cons, Prod.mk.injEq, List.not_mem_nil, or_false] at hrow
    obtain ⟨rfl, rfl⟩ | ⟨rfl, rfl⟩ := hrow <;> rfl
  obtain rfl : m = releasedLines s c d := by
    refine Lines.ext_get (fun k => BitVec.eq_of_getLsbD_eq fun n _ => ?_) ?_
    · rw [hbits, releasedLines_bit hmap]
      rfl
    · rw [hline, releasedLines_nonCpu hmap]
  have few (k : LineKind) (n : Nat) (bit : ((releasedLines s c d).core.get k).getLsbD n = true) : n < 4 := by
    rw [releasedLines_bit hmap] at bit
    simp only [Bool.and_eq_true, decide_eq_true_eq] at bit
    exact bit.1.1.2
  rw [hi, ← nonCpuPart_eq, ← cpuPart_eq]
  by_cases other : (releasedLines s c d).meets otherCoresLines = true
  · rw [if_pos ((meets_otherCoresLines few).1 other)]
    exact exec_wr_of_refusal (r := .rstCmplxClr c) hp (by rw [ownCheck, if_pos other])
  rw [if_neg fun h => other ((meets_otherCoresLines few).2 h)]
  have check : ownCheck d s (.rstCmplxClr c) = (releaseFault s c (releasedLines s c d)).map .inl := by
    rw [ownCheck, if_neg other]
  have hazard {k : Fault} (h : releaseFault s c (releasedLines s c d) = some k) :
      exec (.wr d (.rstCmplxClr c)) s = .fault k :=
    exec_wr_of_hazard (r := .rstCmplxClr c) hp (by rw [check, h]; rfl)
  split
  · rename_i h1
    exact hazard (by rw [releaseFault_eq, if_pos h1])
  rename_i h1
  split
  · rename_i h2
    exact hazard (by rw [releaseFault_eq, if_neg h1, if_pos h2])
  rename_i h2
  split
  · rename_i h3
    exact hazard (by rw [releaseFault_eq, if_neg h1, if_neg h2, if_pos h3])
  rename_i h3
  split
  · rename_i h4
    exact hazard (by rw [releaseFault_eq, if_neg h1, if_neg h2, if_neg h3, if_pos h4])
  rename_i h4
  split
  · rename_i h5
    exact hazard (by rw [releaseFault_eq, if_neg h1, if_neg h2, if_neg h3, if_neg h4, if_pos h5])
  rename_i h5
  have passed : releaseFault s c (releasedLines s c d) = none := by
    rw [releaseFault_eq, if_neg h1, if_neg h2, if_neg h3, if_neg h4, if_neg h5]
  refine ⟨(s.rstCmplx.get c).without (releasedLines s c d), fun k n => ?_, rfl, ?_⟩
  · have line := lineAsserted_storedRstClr d s c c k n
    simp only [lineAsserted, storedRstClr, PerCluster.get_set_self, decide_true, Bool.true_and] at line
    exact line
  · exact exec_wr_of_plain (r := .rstCmplxClr c) hp (by rw [check, passed]; rfl) (by simp) hc

/-! ### The timer and the active cluster -/

/-- Settles O32: the span check stands first; a start covers what settles now. -/
theorem timerWrite : Obligations.TimerWrite := by
  rintro s d v hmap rfl hc
  have hptv : ptvOfWord s.cfg.map d = (d.extractLsb' 0 29).setWidth 32 := by rw [hmap]; rfl
  have hen : d.getLsbD s.cfg.map.place.tmrEn = d.getLsbD 31 := by rw [hmap]; rfl
  have unchecked (fits : ((d.extractLsb' 0 29).setWidth 32 : Word).toNat ≤ s.cfg.tmrMax) :
      exec (.wrTmrPtv d) s = .next (s.stored .tmrPtv d) :=
    exec_wr_of_plain (r := .tmrPtv) rfl (by rw [ownCheck, hptv, if_neg (by omega)]) (by simp) hc
  refine ⟨fun long => ?_, fun fits stop => ?_, fun fits start => ?_⟩
  · exact exec_wr_of_refusal (r := .tmrPtv) rfl (by rw [ownCheck, hptv, if_pos long])
  · rw [unchecked fits, State.stored, storesOf, storedTimer, hen, stop, hptv]
    rfl
  · refine ⟨settleCovered s ((d.extractLsb' 0 29).setWidth 32 : Word).toNat, fun p => ?_, fun i => ?_, ?_⟩
    · simp [settleCovered, pllSettling, and_assoc]
    · simp [settleCovered, clampSettling]
    · rw [unchecked fits, State.stored, storesOf, storedTimer, hen, start, hptv]
      rfl

/-- Settles O33. -/
theorem clusterControlWrite : Obligations.ClusterControlWrite := by
  intro s d hmap hc
  have named : clusterOfWord s.cfg.map d = if d.getLsbD 0 = true then .e else .p := by
    rw [hmap, clusterOfWord, clusterOfBit]
    show (if (d.getLsbD 0 == true) = true then _ else _) = _
    rw [beq_true]
  have check : ownCheck d s .clusterControl =
      if d.getLsbD 0 = true ∧ s.cfg.dualCluster = false then some (.inr .singleCluster) else none := by
    rw [ownCheck, named]
    cases d.getLsbD 0 <;> cases s.cfg.dualCluster <;> rfl
  split
  · rename_i refused
    exact exec_wr_of_refusal (r := .clusterControl) rfl (by rw [check, if_pos refused])
  · rename_i accepted
    refine (exec_wr_of_plain (r := .clusterControl) rfl (by rw [check, if_neg accepted]) (by simp) hc).trans ?_
    rw [State.stored, storesOf, named]

end Sys2Proof.Machine
end

section
/-! PROOFS of the reads after writes and of the repeated writes (obligations O34 and O35, `spec/20_memory.md`). -/

namespace Sys2Proof.Machine

open Sys2Proof

/-- A field put back where it was taken from is its own bits of the word. -/
theorem putField_fieldOf_getLsbD (f : FieldPlace) (d : Word) {i : Nat} (h : i < 32) :
    (putField f (fieldOf f d)).getLsbD i = (decide (f.lo ≤ i) && decide (i - f.lo < f.width) && d.getLsbD i) := by
  rw [putField_getLsbD _ _ _ h, fieldOf_getLsbD]
  by_cases low : f.lo ≤ i
  · simp [low, show f.lo + (i - f.lo) = i by omega, show i - f.lo < 32 by omega]
  · simp [low]

/-- The plain registers with the bits that are theirs (rule R104). -/
def plainRows : List (Reg × Word) :=
  [(Reg.oscCtrl, (0x3F : Word)), (.oscFreqDet, 0xF), (.sclkBurstPolicy, 0xF), (.sclkDivider, 0x8000FFFF),
    (.cclkBurstPolicy, 0xF), (.cclkDivider, 0x8000FFFF), (.clkEnb, 0x3F), (.cpuSoftrstCtrl .p, 0xFFFFFFFF),
    (.cpuSoftrstCtrl .e, 0xFFFFFFFF), (.pllMisc .sys, 0x4FFFF), (.pllMisc .cpu, 0x4FFFF), (.pllMisc .usb, 0x4FFFF),
    (.resetVector, 0xFFFFFFFF), (.clusterControl, 1), (.tmrPtv, 0x9FFFFFFF), (.timerusUsecCfg, 0xFFFF)]

section
variable (d : Word)

/-! The bits a plain register keeps of a word, layout by layout. -/

theorem selector_keeps : putField ⟨0, 4⟩ (fieldOf ⟨0, 4⟩ d) = d &&& 0xF := by
  apply BitVec.eq_of_getLsbD_eq
  intro k hk
  rw [putField_fieldOf_getLsbD _ _ hk, BitVec.getLsbD_and]
  interval_cases k <;> simp

theorem oscCtrl_keeps : putField ⟨4, 2⟩ (fieldOf ⟨4, 2⟩ d) ||| putField ⟨0, 4⟩ (fieldOf ⟨0, 4⟩ d) = d &&& 0x3F := by
  apply BitVec.eq_of_getLsbD_eq
  intro k hk
  rw [BitVec.getLsbD_or, putField_fieldOf_getLsbD _ _ hk, putField_fieldOf_getLsbD _ _ hk, BitVec.getLsbD_and]
  interval_cases k <;> simp

theorem usec_keeps : putField ⟨8, 8⟩ (fieldOf ⟨8, 8⟩ d) ||| putField ⟨0, 8⟩ (fieldOf ⟨0, 8⟩ d) = d &&& 0xFFFF := by
  apply BitVec.eq_of_getLsbD_eq
  intro k hk
  rw [BitVec.getLsbD_or, putField_fieldOf_getLsbD _ _ hk, putField_fieldOf_getLsbD _ _ hk, BitVec.getLsbD_and]
  interval_cases k <;> simp

theorem divider_keeps :
    dividerWord RegMap.spec.place.sclkDivider (dividerOfWord RegMap.spec.place.sclkDivider d) = d &&& 0x8000FFFF := by
  apply BitVec.eq_of_getLsbD_eq
  intro k hk
  simp only [dividerWord, dividerOfWord, BitVec.getLsbD_or, putField_fieldOf_getLsbD _ _ hk, placeBit_getLsbD _ _ _ hk,
    BitVec.getLsbD_and, RegMap.spec]
  interval_cases k <;> simp

theorem gates_keeps : gatesWord .spec (gatesOfWord .spec d) = d &&& 0x3F := by
  rw [gatesOfWord_spec, gatesWord_spec]
  apply BitVec.eq_of_getLsbD_eq
  intro k hk
  simp only [BitVec.getLsbD_setWidth, BitVec.getLsbD_append, BitVec.getLsbD_ofBool, BitVec.getLsbD_and]
  interval_cases k <;> simp

theorem pllMisc_keeps : pllMiscWord .spec (pllMiscOfWord .spec d) = d &&& 0x4FFFF := by
  apply BitVec.eq_of_getLsbD_eq
  intro k hk
  simp only [pllMiscWord, pllMiscOfWord, BitVec.getLsbD_or, putField_fieldOf_getLsbD _ _ hk, placeBit_getLsbD _ _ _ hk,
    BitVec.getLsbD_and, RegMap.spec]
  interval_cases k <;> simp

theorem tmrPtv_keeps :
    placeBit 31 (d.getLsbD 31) ||| putField ⟨0, 29⟩ (fieldOf ⟨0, 29⟩ d) = d &&& 0x9FFFFFFF := by
  apply BitVec.eq_of_getLsbD_eq
  intro k hk
  rw [BitVec.getLsbD_or, putField_fieldOf_getLsbD _ _ hk, placeBit_getLsbD _ _ _ hk, BitVec.getLsbD_and]
  interval_cases k <;> simp

theorem cluster_keeps :
    placeBit 0 (clusterBit .spec (clusterOfWord .spec d)) = d &&& 1 := by
  have bit : clusterBit .spec (clusterOfWord .spec d) = d.getLsbD 0 := by
    rw [clusterOfWord, clusterOfBit]
    show clusterBit .spec (if (d.getLsbD 0 == true) = true then .e else .p) = _
    cases d.getLsbD 0 <;> rfl
  rw [bit]
  apply BitVec.eq_of_getLsbD_eq
  intro k hk
  rw [placeBit_getLsbD _ _ _ hk, BitVec.getLsbD_and]
  interval_cases k <;> simp

theorem word_keeps : d = d &&& 0xFFFFFFFF := (BitVec.and_allOnes (x := d)).symm

end

/-- What a plain register reads after a write of `d` (rule R104). -/
theorem readValue_stored {s : State} (hmap : s.cfg.map = .spec) (d : Word) {r : Reg} {mask : Word}
    (h : (r, mask) ∈ plainRows) : readValue (s.stored r d) r = d &&& mask := by
  obtain ⟨_, cfg⟩ := s
  obtain ⟨⟩ := cfg
  obtain rfl : _ = RegMap.spec := hmap
  simp only [plainRows, List.mem_cons, Prod.mk.injEq, List.not_mem_nil, or_false] at h
  obtain ⟨rfl, rfl⟩ | ⟨rfl, rfl⟩ | ⟨rfl, rfl⟩ | ⟨rfl, rfl⟩ | ⟨rfl, rfl⟩ | ⟨rfl, rfl⟩ | ⟨rfl, rfl⟩ | ⟨rfl, rfl⟩ |
    ⟨rfl, rfl⟩ | ⟨rfl, rfl⟩ | ⟨rfl, rfl⟩ | ⟨rfl, rfl⟩ | ⟨rfl, rfl⟩ | ⟨rfl, rfl⟩ | ⟨rfl, rfl⟩ | ⟨rfl, rfl⟩ := h
  · exact oscCtrl_keeps d
  · exact selector_keeps d
  · exact selector_keeps d
  · exact divider_keeps d
  · exact selector_keeps d
  · exact divider_keeps d
  · exact gates_keeps d
  · exact word_keeps d
  · exact word_keeps d
  · exact pllMisc_keeps d
  · exact pllMisc_keeps d
  · exact pllMisc_keeps d
  · exact word_keeps d
  · exact cluster_keeps d
  · simp only [readValue, State.stored, storesOf_tmrPtv]
    exact tmrPtv_keeps d
  · exact usec_keeps d

/-- Settles O34: the register reads what it kept. -/
theorem readAfterWrite : Obligations.ReadAfterWrite := by
  intro s t d mask r hrow hmap e
  obtain ⟨present, -, rfl⟩ := exec_wr_next e
  rw [exec_rd_of_present (by rwa [stored_cfg]), readValue_stored hmap d hrow]

/-! ### A write repeated at once -/

theorem PerPll.set_set {α : Type} (x : PerPll α) (p : PllId) (a b : α) : (x.set p a).set p b = x.set p b := by
  cases p <;> rfl

theorem PerCluster.set_set {α : Type} (x : PerCluster α) (c : Cluster) (a b : α) :
    (x.set c a).set c b = x.set c b := by
  cases c <;> rfl

theorem length_setTap_ge (l : List Tap) (k : Nat) (t : Tap) :
    l.length ≤ (setTap l k t).length ∧ k < (setTap l k t).length := by
  induction l, k, t using setTap.induct <;> simp_all [setTap]

/-- Every stored tap has a place. -/
theorem length_storeTaps_ge (held : List (Nat × TapPlaces)) (d : Word) (l : List Tap) :
    l.length ≤ (storeTaps held d l).length ∧ ∀ x ∈ held, x.1 < (storeTaps held d l).length := by
  induction held generalizing l with
  | nil => simp [storeTaps]
  | cons x held ih =>
    obtain ⟨grows, has⟩ := length_setTap_ge l x.1 (tapOfWord x.2 d)
    obtain ⟨grows', has'⟩ := ih (setTap l x.1 (tapOfWord x.2 d))
    rw [storeTaps, List.foldl_cons]
    refine ⟨grows.trans grows', fun y hy => ?_⟩
    obtain rfl | hy := List.mem_cons.1 hy
    · exact has.trans_le grows'
    · exact has' y hy

/-- Taps stored twice are stored once. -/
theorem storeTaps_twice {held : List (Nat × TapPlaces)} (hn : (held.map (·.1)).Nodup) (d : Word) (l : List Tap) :
    storeTaps held d (storeTaps held d l) = storeTaps held d l := by
  refine taps_ext (length_storeTaps d (length_storeTaps_ge held d l).2) fun k => ?_
  by_cases hk : k ∈ held.map (·.1)
  · obtain ⟨⟨k, f⟩, hx, rfl⟩ := List.mem_map.1 hk
    rw [tapAt_storeTaps_held hn hx, tapAt_storeTaps_held hn hx]
  · rw [tapAt_storeTaps_other hk]

/-- Lines set twice are set once. -/
theorem or_or_self (x y : Lines) : (x.or y).or y = x.or y :=
  Lines.ext_get (fun k => by simp [BitVec.or_assoc]) (by simp)

/-- Lines a write has cleared are not cleared again. -/
theorem and_without_self (x y : Lines) : y.and (x.without (y.and x)) = .none := by
  refine Lines.ext_get (fun k => ?_) ?_
  · simp only [Lines.core_and, Lines.core_without, Lines.core_none]
    apply BitVec.eq_of_getLsbD_eq
    intro n hn
    simp only [BitVec.getLsbD_and, BitVec.getLsbD_not, hn, decide_true, Bool.true_and]
    cases (x.core.get k).getLsbD n <;> cases (y.core.get k).getLsbD n <;> simp
  · simp only [Lines.nonCpu_and, Lines.nonCpu_without, Lines.nonCpu_none]
    cases x.nonCpu <;> cases y.nonCpu <;> rfl

theorem without_none (x : Lines) : x.without .none = x :=
  Lines.ext_get (fun k => by rw [Lines.core_without, Lines.core_none]; exact BitVec.and_allOnes) (by simp)

theorem releasedLines_storedRstClr (c : Cluster) (d : Word) (s : State) :
    releasedLines (storedRstClr c d s) c d = .none := by
  rw [releasedLines, storedRstClr, PerCluster.get_set_self]
  exact and_without_self _ _

/-- Stores made twice are made once. -/
theorem storesOf_twice (d : Word) (s : State) (r : Reg) : storesOf d (storesOf d s r) r = storesOf d s r := by
  have taps (p : PllId) (r : Reg) :
      storedTaps p (r.taps s.cfg) d (storedTaps p (r.taps s.cfg) d s) = storedTaps p (r.taps s.cfg) d s := by
    simp only [storedTaps, PerPll.get_set_self, PerPll.set_set, storeTaps_twice (taps_nodup s.cfg r)]
  cases r with
  | oscFreqDet => simp [storesOf]
  | rstDevSet => simp [storesOf, setGates]
  | rstDevClr => simp [storesOf, clearGates]
  | rstCmplxSet c =>
    have same : namedLines (storedRstSet c d s) c d = namedLines s c d := rfl
    simp only [storesOf]
    rw [storedRstSet, same]
    simp [storedRstSet, or_or_self, PerCluster.set_set]
  | rstCmplxClr c =>
    simp only [storesOf]
    rw [storedRstClr, releasedLines_storedRstClr, without_none]
    simp [storedRstClr, PerCluster.set_set]
  | cpuSoftrstCtrl c => simp only [storesOf, PerCluster.set_set]
  | pllBase p =>
    have stable (x : Bool) (old new : PllBase) :
        stableAfter new new (stableAfter old new x) = stableAfter old new x := by
      simp only [stableAfter_eq]
      cases new.enable <;> simp
    simp [storesOf, storedPllBase, PerPll.set_set, stable]
  | pllMisc p => simp only [storesOf, PerPll.set_set]
  | pllOutA p => exact taps p _
  | pllOutB p => exact taps p _
  | pwrgateToggle =>
    simp only [storesOf, storedToggle]
    split <;> rfl
  | removeClampingCmd => simp [storesOf, storedClamps]
  | ramRepair =>
    simp only [storesOf_ramRepair]
    cases d.getLsbD s.cfg.map.place.repairReq <;> simp
  | tmrPtv =>
    simp only [storesOf_tmrPtv]
    cases d.getLsbD s.cfg.map.place.tmrEn with
    | false => simp
    | true => rfl
  | _ => rfl

/-- The stores of a write do not look at what has been recorded. -/
theorem storesOf_logWrite (d d' : Word) (s : State) (r r' : Reg) :
    storesOf d (s.logWrite r' d') r = (storesOf d s r).logWrite r' d' := by
  cases r with
  | ramRepair => simp only [storesOf_ramRepair]; rfl
  | tmrPtv => simp only [storesOf_tmrPtv]; rfl
  | _ => rfl

/-- What a completed write has stored, it stores again. -/
theorem storesOf_stored (d : Word) (s : State) (r : Reg) : storesOf d (s.stored r d) r = s.stored r d := by
  rw [State.stored, storesOf_logWrite, storesOf_twice]

/-- The taps a write has stored are no hazard to it (rule R151). -/
theorem tapHazard_storedTaps (p : PllId) (d : Word) (s : State) (r : Reg) :
    (r.taps s.cfg).find? (tapHazard (storedTaps p (r.taps s.cfg) d s) p d) = none := by
  refine List.find?_eq_none.2 fun x hx => ?_
  have held : tapAt ((storedTaps p (r.taps s.cfg) d s).taps.get p) x.1 = tapOfWord x.2 d := by
    rw [storedTaps, PerPll.get_set_self, tapAt_storeTaps_held (taps_nodup s.cfg r) hx]
  simp [tapHazard, held]

/-- A write that has passed its checks passes them again, unless it is a toggle start. -/
theorem ownCheck_stored {d : Word} {s : State} {r : Reg} (h : ownCheck d s r = none)
    (hr : ¬(r = .pwrgateToggle ∧ d.getLsbD s.cfg.map.place.start = true)) : ownCheck d (s.stored r d) r = none := by
  cases r with
  | clkEnb =>
    have shut : gateOpensBadly (s.stored .clkEnb d) d = false := by
      show (!(gatesOfWord s.cfg.map d).cpu && (gatesOfWord s.cfg.map d).cpu && _) = false
      simp
    simp [ownCheck, shut]
  | rstDevClr =>
    have free : complexUnpowered (s.stored .rstDevClr d) d = false := by
      show ((gatesOfWord s.cfg.map d).cpu && (s.rstDev.cpu && !(gatesOfWord s.cfg.map d).cpu) && _) = false
      cases (gatesOfWord s.cfg.map d).cpu <;> simp
    simp [ownCheck, free]
  | rstCmplxClr c =>
    have none : releasedLines (s.stored (.rstCmplxClr c) d) c d = .none := releasedLines_storedRstClr c d s
    rw [ownCheck, none]
    rfl
  | pllBase p =>
    have same : (s.stored (.pllBase p) d).pllBase.get p = pllBaseOfWord s.cfg.map d := PerPll.get_set_self ..
    have kept : reprogramsEnabled ((s.stored (.pllBase p) d).pllBase.get p) (pllBaseOfWord s.cfg.map d) = false := by
      rw [same]
      simp [reprogramsEnabled]
    rw [ownCheck, stored_cfg, kept]
    rfl
  | pllOutA p => exact congrArg (Option.map _) (tapHazard_storedTaps p d s (.pllOutA p))
  | pllOutB p => exact congrArg (Option.map _) (tapHazard_storedTaps p d s (.pllOutB p))
  | pwrgateToggle =>
    have noStart : startsToggleWord s.cfg.map d = false := Bool.eq_false_iff.2 fun start => hr ⟨rfl, start⟩
    rw [ownCheck, stored_cfg, noStart]
    rfl
  | tmrPtv =>
    rw [ownCheck, stored_cfg]
    exact h
  | _ => exact h

/-- A toggle start leaves its toggle pending, and so cannot be repeated (rule R192). -/
theorem ownCheck_toggle_twice {d : Word} {s : State} (h : ownCheck d s .pwrgateToggle = none)
    (start : d.getLsbD s.cfg.map.place.start = true) :
    ownCheck d (s.stored .pwrgateToggle d) .pwrgateToggle = some (.inl .toggleWhilePending) := by
  have starts : startsToggleWord s.cfg.map d = true := start
  cases named : partOfId s.cfg.map (partIdOfWord s.cfg.map d) with
  | none => simp [ownCheck, starts, named] at h
  | some i =>
    have pending : toggleBusy (s.stored .pwrgateToggle d) = true := by
      show Option.isSome (if startsToggleWord s.cfg.map d then partOfId s.cfg.map (partIdOfWord s.cfg.map d) else _) = true
      rw [if_pos starts, named]
      rfl
    simp [ownCheck, stored_cfg, starts, named, pending]

/-- Settles O35: the stores are there already, and so the checks pass as before; a toggle start finds itself pending. -/
theorem writesIdempotent : Obligations.WritesIdempotent := by
  intro s t d r e
  have unchecked := ownCheck_of_next e
  obtain ⟨present, clean, rfl⟩ := exec_wr_next e
  have present' : r.present (s.stored r d).cfg = true := by rwa [stored_cfg]
  split
  · next start =>
    obtain ⟨rfl, start⟩ := start
    exact exec_wr_of_hazard present' (ownCheck_toggle_twice unchecked start)
  · next other =>
    rw [exec_wr_of_clocks present' (ownCheck_stored unchecked other) (by rw [storesOf_stored]; exact clean), State.stored,
      storesOf_stored]

end Sys2Proof.Machine
end

section
/-! PROOFS of the driving procedures (obligations O52 to O57, `spec/45_boot_sequencer.md`) and of the fixed facts about
the configuration's tables and the reset state (O42, O43, O60). -/

namespace Sys2Proof.Machine

open Sys2Proof

/-- Settles O60. -/
theorem defaultTablesExact : Obligations.DefaultTablesExact := by
  unfold Obligations.DefaultTablesExact
  decide

/-- The reset state keeps rule R351, clause by clause. -/
theorem reset_inv : State.reset.Inv where
  clocks := by decide
  stable p := by cases p <;> decide
  repair := by decide
  nonCpu c := by cases c <;> decide
  clamps i := by cases i <;> decide
  timer := by decide
  stopped := by decide
  lines c := by cases c <;> decide
  taps p := by cases p <;> decide
  cluster := by decide
  span := by decide
  fields := by decide

/-- Settles O42. -/
theorem resetSatisfiesConstraints : Obligations.ResetSatisfiesConstraints where
  config := by decide
  elements := rfl
  inv := reset_inv
  crystal f h := ⟨osc12MHz, by decide, Option.some.inj h⟩
  toggle i := by cases i <;> decide
  settle := by decide
  status := by decide
  marks := by decide

/-- `COLD0` meets `PRE_BOOT`, clause by clause (rule R372). -/
theorem reset_preBoot : State.reset.PreBoot where
  idle := by decide
  settled p := by cases p <;> decide
  source := by decide
  gate := by decide
  fuses := by decide
  sources := by decide
  tables := by decide
  bounds := by decide
  dual := by decide
  usable := by decide

/-- Settles O43: no PLL is enabled at reset, so neither corner is met. -/
theorem resetMayBoot : Obligations.ResetMayBoot :=
  ⟨reset_preBoot, fun ⟨_, enabled, _⟩ => absurd enabled (by decide), fun ⟨_, pending, _⟩ => absurd pending (by decide)⟩

/-- Settles O52. -/
theorem pollReadsUntilWanted : Obligations.PollReadsUntilWanted := by
  intro s u r mask want rest hp e
  obtain ⟨-, v, rfl⟩ := exec_rd_next e
  rw [masterStep_of_cmd hp, issue, e]
  simp only [onNext, retryPoll]
  split
  · rfl
  · exact congrArg Host.Outcome.next (settle_of_cmd rfl)

@[simp] theorem readValue_load (s : State) (ops : List Op) (r : Reg) : readValue (s.load ops) r = readValue s r := by
  cases r <;> rfl

/-- The data of a write do not depend on the statements still to run. -/
theorem exprValue_prog (cfg : Config) (m : Master) (ops : List Op) (e : Expr) :
    exprValue cfg { m with prog := ops } e = exprValue cfg m e := by
  induction e with
  | band a b iha ihb => simp only [exprValue, iha, ihb]
  | bor a b iha ihb => simp only [exprValue, iha, ihb]
  | bnot a ih => simp only [exprValue, ih]
  | _ => rfl

/-- A master at a read of a present register reads it and runs on. -/
theorem masterStep_of_rd {s : State} {r : Reg} {rest : List Op} (hp : s.master.prog = rdOp r :: rest)
    (hr : r.present s.cfg = true) : masterStep s = .next ((s.load rest).gotRead r (readValue s r)).settle := by
  rw [masterStep_of_cmd hp, issue, exec_rd_of_present (by rwa [load_cfg]), readValue_load]
  rfl

/-- A master whose statements are the ones given to it stays as it is. -/
theorem load_same {s : State} {ops : List Op} (h : s.master.prog = ops) : s.load ops = s := by
  obtain ⟨hw, cfg, history, entry, fault, refused, master⟩ := s
  obtain ⟨⟩ := master
  cases h
  rfl

/-- A master at a poll whose read finds what it wants runs on; otherwise the poll is next again. -/
theorem masterStep_of_poll {s : State} {r : Reg} {mask want : Word} {rest : List Op}
    (hp : s.master.prog = pollOp r mask want :: rest) (hr : r.present s.cfg = true) :
    masterStep s =
      .next (if readValue s r &&& mask = want then ((s.load rest).gotRead r (readValue s r)).settle
        else s.gotRead r (readValue s r)) := by
  have again : ((s.load rest).gotRead r (readValue s r)).load (pollOp r mask want :: rest) = s.gotRead r (readValue s r) :=
    load_same (s := s.gotRead r (readValue s r)) hp
  rw [pollReadsUntilWanted s _ r mask want rest hp (exec_rd_of_present (by rwa [load_cfg])), readValue_load]
  exact congrArg Host.Outcome.next (ite_congr rfl (fun _ => rfl) fun _ => again)

/-- A master at a write issues it with its computed data and runs on. -/
theorem masterStep_of_wr {s : State} {r : Reg} {e : Expr} {rest : List Op} (hp : s.master.prog = wrOp r e :: rest) :
    masterStep s = onNext State.settle (exec (.wr (exprValue s.cfg s.master e) r) (s.load rest)) := by
  rw [masterStep_of_cmd hp, issue, load_cfg, load_master, exprValue_prog]

/-- Skipping a whole body leads to what stands after it. -/
theorem settleOps_skip (cfg : Config) (body rest : List Op) (m : Master) :
    settleOps cfg body.length (body ++ rest) m = settleOps cfg 0 rest m := by
  induction body with
  | nil => rfl
  | cons o body ih => exact ih

/-- Settling is by the statements still to run. -/
theorem settle_load (s : State) (ops : List Op) :
    (s.load ops).settle = { s with master := settleOps s.cfg 0 ops s.master } := by
  rw [State.settle]
  exact congrArg (fun m => { s with master := m }) (settleOps_prog s.cfg 0 ops s.master ops)

/-- A short circuit runs its body or passes it over (rule R297). -/
theorem settle_ifOps {s : State} {c : Cond} {body rest : List Op} :
    (s.load (ifOps c body ++ rest)).settle =
      if condHolds s.cfg s.master c then (s.load (body ++ rest)).settle else (s.load rest).settle := by
  have skips :
      settleOps s.cfg 0 (ifOps c body ++ rest) s.master =
        settleOps s.cfg (if condHolds s.cfg s.master (.neg c) then body.length else 0) (body ++ rest) s.master := rfl
  rw [settle_load, settle_load, settle_load, skips]
  cases h : condHolds s.cfg s.master c <;> simp [condHolds, h, settleOps_skip]

/-- A partition's bit of the status word (rules R106, R194). -/
theorem partsWord_meets (x : PerPart Bool) (i : Part) :
    partsWord .spec x &&& partMask .spec i = partMask .spec i ↔ x.get i = true := by
  obtain ⟨a, b, c, d, e⟩ := x
  revert a b c d e
  cases i <;> decide

/-- The words of a toggle start and of a partition's bit (rules R106, R192). -/
theorem toggleWord_spec (i : Part) :
    placeBit RegMap.spec.place.start true ||| putField RegMap.spec.place.partId (BitVec.ofNat 32 (RegMap.spec.partId.get i))
      = BitVec.ofNat 32 (2 ^ 8 + RegMap.spec.partId.get i) ∧
    partMask .spec i = BitVec.ofNat 32 (2 ^ RegMap.spec.partId.get i) := by
  cases i <;> decide

/-- What stands after the read of `powerUp` (rule R289). -/
theorem settle_powerUp {s : State} {i : Part} (hmap : s.cfg.map = .spec) (rest : List Op) :
    ((s.load ((powerUp s.cfg.map i).tail ++ rest)).gotRead .pwrgateStatus (readValue s .pwrgateStatus)).settle =
      if isPowered s i = true then ((s.load rest).gotRead .pwrgateStatus (readValue s .pwrgateStatus)).settle
      else ((s.load ([wrOp .pwrgateToggle
        (.lit (placeBit s.cfg.map.place.start true |||
          putField s.cfg.map.place.partId (BitVec.ofNat 32 (s.cfg.map.partId.get i)))),
        pollOp .pwrgateStatus (partMask s.cfg.map i) (partMask s.cfg.map i)] ++ rest)).gotRead .pwrgateStatus
          (readValue s .pwrgateStatus)).settle := by
  have meets : readValue s .pwrgateStatus &&& partMask s.cfg.map i = partMask s.cfg.map i ↔ isPowered s i = true := by
    rw [readValue, hmap]
    exact partsWord_meets s.pwrStatus i
  refine (settle_ifOps (s := s.gotRead .pwrgateStatus (readValue s .pwrgateStatus))).trans ?_
  by_cases powered : isPowered s i = true
  · rw [if_neg (by simpa [condHolds] using meets.2 powered), if_pos powered]
    rfl
  · rw [if_pos (by simpa [condHolds] using fun h => powered (meets.1 h)), if_neg powered]
    rfl

/-- Settles O53: the read's own step takes the branch. -/
theorem powerUpProcedure : Obligations.PowerUpProcedure := by
  intro s i rest v hmap hv number hn
  obtain rfl : v = readValue s .pwrgateStatus := by rw [hv, readValue, hmap, partsWord_spec]
  obtain rfl : number = RegMap.spec.partId := hn
  obtain ⟨toggleWord, maskWord⟩ := toggleWord_spec i
  have meets : readValue s .pwrgateStatus &&& partMask .spec i = partMask .spec i ↔ isPowered s i = true := by
    rw [readValue, hmap]
    exact partsWord_meets s.pwrStatus i
  refine ⟨fun hp powered => ?_, fun hp off => ?_, fun m hm hp => ?_⟩
  · rw [masterStep_of_rd hp rfl]
    exact congrArg Host.Outcome.next ((settle_powerUp hmap rest).trans (if_pos powered))
  · refine ⟨_, _, rfl, rfl, ?_⟩
    rw [masterStep_of_rd hp rfl, ← toggleWord, ← maskWord, ← hmap]
    exact congrArg Host.Outcome.next
      ((settle_powerUp hmap rest).trans ((if_neg (by rw [off]; decide)).trans (settle_of_cmd rfl)))
  · rw [← maskWord] at hm
    subst hm
    rw [masterStep_of_poll hp rfl]
    exact congrArg Host.Outcome.next (ite_congr (propext meets) (fun _ => rfl) fun _ => rfl)

/-- Settles O54. -/
theorem cpuGateProcedures : Obligations.CpuGateProcedures := by
  intro s rest ops v data hmap hv hops hp
  obtain rfl : v = readValue s .clkEnb := by rw [hv, readValue, hmap, gatesWord_spec]
  have mask : cpuMask s.cfg.map = 1 := by rw [hmap]; decide
  have procedure (e : Expr) (hp : s.master.prog = rdOp .clkEnb :: wrOp .clkEnb e :: rest)
      (he : exprValue s.cfg { s.master with v := readValue s .clkEnb } e = data) :
      ∃ (op : Op) (u : State), masterStep s = .next u ∧ u = (s.load (op :: rest)).gotRead .clkEnb (readValue s .clkEnb) ∧
        masterStep u = onNext State.settle (exec (.wrClkEnb data) (u.load rest)) := by
    have master := masterStep_of_rd hp rfl
    rw [settle_of_cmd rfl] at master
    refine ⟨wrOp .clkEnb e, _, master, rfl, ?_⟩
    rw [masterStep_of_wr rfl]
    exact congrArg (fun d => onNext State.settle (exec (.wrClkEnb d) _)) ((exprValue_prog ..).trans he)
  simp only [List.mem_cons, Prod.mk.injEq, List.not_mem_nil, or_false] at hops
  obtain ⟨rfl, rfl⟩ | ⟨rfl, rfl⟩ := hops
  · exact procedure _ hp (by simp only [exprValue, mask])
  · exact procedure _ hp (by simp only [exprValue, mask])

/-- The changes of `seq` at the end of a transition are made on the way to its `Post` (rule R300). -/
theorem settle_endTransition {s : State} {ch : Byte} {rest : List Op} :
    (s.load (endTransition ch ++ rest)).settle = { s with master := { s.master.advance with prog := postOp ch :: rest } } :=
  settle_load ..

/-- Settles O55. -/
theorem handOff : Obligations.HandOff := by
  intro s rest hp hseq clean e t he ht
  have settled : s.settle =
      if condHolds s.cfg s.master .vectorGiven then s.load (wrOp .resetVector .vectorArg :: (endTransition e ++ rest))
      else (s.load (endTransition e ++ rest)).settle := by
    rw [transition5, List.append_assoc, ← he] at hp
    rw [← load_same hp, settle_ifOps]
    exact ite_congr rfl (fun _ => settle_of_cmd rfl) fun _ => rfl
  have handed (u : State) (hu : u.master.seq = .resetReleased) :
      (u.load (endTransition e ++ rest)).settle =
        { u with master := { u.master with seq := .handedOff, prog := postOp e :: rest } } := by
    rw [settle_endTransition, Master.advance, hu]
    rfl
  refine ⟨fun spec => by rw [he, spec]; rfl, fun none => ?_, fun given u hu => ⟨?_, ?_⟩⟩
  · rw [masterStep, settled, if_neg (by simp [condHolds, none]), handed s hseq, ht]
    rfl
  · have store : exec (.wr s.master.resetVector .resetVector) (s.load (endTransition e ++ rest)) = _ :=
      exec_wr_of_clocks rfl rfl clean
    rw [masterStep, settled, if_pos (by simpa [condHolds] using given)]
    show onNext State.settle (exec (.wr s.master.resetVector .resetVector) (s.load (endTransition e ++ rest))) = _
    rw [store, hu, ht]
    exact congrArg Host.Outcome.next (handed (s.stored .resetVector s.master.resetVector) hseq)
  · rw [masterStep_of_cmd (c := .post e) (rest := rest) rfl, hu, ht]
    rfl

/-- The data of a countdown's start (rules R46, R246). -/
theorem timerWord_spec {k : Nat} (h : k < 2 ^ 29) :
    placeBit RegMap.spec.place.tmrEn true ||| putField RegMap.spec.place.ptv (BitVec.ofNat 32 k) =
      BitVec.ofNat 32 (2 ^ 31 + k) := by
  have disjoint : (2 : Nat) ^ 31 ||| k = 2 ^ 31 + k := (Nat.two_pow_add_eq_or_of_lt (i := 31) (by omega) 1).symm
  have word : putField RegMap.spec.place.ptv (BitVec.ofNat 32 k) = BitVec.ofNat 32 k := by
    apply BitVec.eq_of_toNat_eq
    simp [putField, cutTo, RegMap.spec]
    omega
  have flag : placeBit RegMap.spec.place.tmrEn true = BitVec.ofNat 32 (2 ^ 31) := by decide
  rw [word, flag, ← disjoint]
  exact (BitVec.ofNat_or ..).symm

/-- Settles O56. -/
theorem stallArithmetic : Obligations.StallArithmetic := by
  intro cfg d hmap htimer
  obtain ⟨atLeast, fits⟩ : 2 ≤ cfg.tmrMax ∧ cfg.tmrMax < 2 ^ 29 := by
    rw [Config.timerOk, hmap, Bool.and_eq_true, decide_eq_true_iff, decide_eq_true_iff] at htimer
    exact htimer
  have span : 0 < cfg.tmrMax - 1 := by omega
  have lower := Nat.mod_lt d span
  refine ⟨d / (cfg.tmrMax - 1), d % (cfg.tmrMax - 1), Nat.div_add_mod' .., by omega, rfl, ?_, fun k hk => ?_⟩
  · simp [stallUs, stallSpan, waitTicks]
    omega
  · rw [waitTicks, hmap, timerWord_spec (by omega)]
    rfl

/-- Settles O57. -/
theorem bootClusterRule : Obligations.BootClusterRule := by
  intro cfg b d hmap
  have literal : effSelected cfg b = true ↔ (b.getLsbD 1 = true ↔ cfg.effSelectPolarity = .literal) := by
    rw [effSelected, hmap]
    show (match cfg.effSelectPolarity with | .literal => b.getLsbD 1 | .inverted => !b.getLsbD 1) = true ↔ _
    cases cfg.effSelectPolarity <;> simp
  simp only [selectCluster, hmap, Bool.and_eq_true, Bool.not_eq_true', literal]
  rfl

end Sys2Proof.Machine
end

section
/-! PROOFS about the countdown and its settle processes (obligation O39, `spec/44_support_blocks.md`). -/

namespace Sys2Proof.Machine

open Sys2Proof

/-- A covered PLL no longer holds the countdown: it has settled, or its zero divider is not waited for (rule R247). -/
theorem pllHolds_eq_false {s : State} {p : PllId} :
    pllHolds s p = false ↔
      pllSettling s p = false ∨
        (s.cfg.zeroDividerStall = .returns ∧ ((s.pllBase.get p).divm = 0 ∨ (s.pllBase.get p).divn = 0)) := by
  have choice : s.cfg.zeroDividerStall = .returns ↔ s.cfg.zeroDividerStall ≠ .hangs := by
    cases s.cfg.zeroDividerStall <;> decide
  rw [choice, pllHolds, dividersRun]
  cases pllSettling s p <;> simp [Decidable.or_iff_not_imp_left]

/-- Rule R247: every settle process the countdown covers has completed. -/
theorem settleDone_iff {s : State} :
    settleDone s = true ↔
      (∀ p, s.tmrSettle.pll.get p = true → pllHolds s p = false) ∧
        ∀ i, s.tmrSettle.clamp.get i = true → clampSettling s i = false := by
  have everyPll (P : PllId → Bool) : PllId.all.all P = true ↔ ∀ p, P p = true :=
    ⟨fun h p => by cases p <;> simp_all [PllId.all], fun h => by simp [PllId.all, h]⟩
  have everyPart (P : Part → Bool) : Part.all.all P = true ↔ ∀ i, P i = true :=
    ⟨fun h i => by cases i <;> simp_all [Part.all], fun h => by simp [Part.all, h]⟩
  simp only [settleDone, Bool.and_eq_true, everyPll, everyPart, Bool.not_eq_true', Bool.and_eq_false_imp]

/-- No write raises `EXPIRED`. -/
theorem storesOf_expired {d : Word} {s : State} {r : Reg} (h : s.tmrExpired = false) :
    (storesOf d s r).tmrExpired = false := by
  cases r with
  | ramRepair => rw [storesOf_ramRepair]; exact h
  | tmrPtv => rw [storesOf_tmrPtv]; simp [h]
  | _ => exact h

/-- No agent but the timer touches the countdown. -/
theorem agentEffect_timer {a : HwAgent} (x : Draw) (s : State) (h : a ≠ .timer) :
    (agentEffect x a s).tmrExpired = s.tmrExpired ∧ (agentEffect x a s).tmrSettle = s.tmrSettle := by
  cases a with
  | timer => exact absurd rfl h
  | powerGate =>
    simp only [agentEffect, completeToggle]
    split
    · exact ⟨rfl, rfl⟩
    · split <;> exact ⟨rfl, rfl⟩
  | _ => exact ⟨rfl, rfl⟩

/-- Only its own agent makes a PLL stable. -/
theorem agentEffect_pllStable_get {a : HwAgent} {p : PllId} (x : Draw) (s : State) (h : a ≠ .pll p) :
    (agentEffect x a s).pllStable.get p = s.pllStable.get p := by
  by_cases hq : ∃ q, a = .pll q
  · obtain ⟨q, rfl⟩ := hq
    exact (PerPll.get_set ..).trans (if_neg fun e => h (congrArg HwAgent.pll e.symm))
  · rw [agentEffect_pllStable x s fun q e => hq ⟨q, e⟩]

/-- In a run whose clocks are clean an agent takes its step when it is present and enabled, and lets its turn pass
otherwise (rules R60, R92). -/
theorem runMove_agent {s : State} (running : s.ended = false) (clean : clockFault s = none) (a : HwAgent) :
    runMove s (.agent a) =
      if agentPresent s.cfg a && agentEnabled s a then (agentEffect s.nextDraw a s).log (.agent a) else s := by
  rw [runMove, if_neg (by rw [running]; decide), takeMove, agentStep]
  split
  · next able =>
    rw [Bool.and_eq_true] at able
    rw [agentStepWith_of_clocks clean able.1 able.2]
    rfl
  · next idle => rw [agentStepWith, if_neg idle]; rfl

/-- A poll of `EXPIRED` on a countdown that covers a pending PLL with a zero divider, on a chip that waits for it. -/
structure State.StuckPoll (s : State) (p : PllId) : Prop where
  map : s.cfg.map = .spec
  hangs : s.cfg.zeroDividerStall = .hangs
  running : s.ended = false
  clocks : clockFault s = none
  expired : s.tmrExpired = false
  head : s.master.prog.head? = some (.cmd (.poll .tmrSts 1 1))
  covered : s.tmrSettle.pll.get p = true
  settling : pllSettling s p = true
  zero : (s.pllBase.get p).divm = 0 ∨ (s.pllBase.get p).divn = 0

namespace State.StuckPoll

variable {s : State} {p : PllId}

theorem dividers (h : s.StuckPoll p) : dividersRun s p = false := by
  obtain zero | zero := h.zero <;> simp [dividersRun, zero]

/-- The timer's step is not enabled. -/
theorem timer_disabled (h : s.StuckPoll p) : agentEnabled s .timer = false := by
  have waits : ¬settleDone s = true := fun done => by
    have free := (settleDone_iff.1 done).1 p h.covered
    rw [pllHolds, h.settling, h.hangs] at free
    cases free
  simp [agentEnabled, waits]

/-- The master reads `EXPIRED` as 0 and polls again. -/
theorem master (h : s.StuckPoll p) : (runMove s .master).StuckPoll p := by
  obtain ⟨rest, hp⟩ : ∃ rest, s.master.prog = pollOp .tmrSts 1 1 :: rest := by
    have head := h.head
    cases prog : s.master.prog with
    | nil => rw [prog] at head; cases head
    | cons o rest => rw [prog] at head; exact ⟨rest, congrArg (· :: rest) (Option.some.inj head)⟩
  have value : readValue s .tmrSts = 0 := by
    rw [readValue, h.expired, h.map]
    decide
  have stays : runMove s .master = s.gotRead .tmrSts 0 := by
    rw [runMove, if_neg (by rw [h.running]; decide), takeMove, masterStep_of_poll hp rfl, value, if_neg (by decide)]
    rfl
  rw [stays]
  exact { h with }

/-- Neither the timer nor the PLL steps, and no other agent touches what holds the countdown up. -/
theorem agent (h : s.StuckPoll p) (a : HwAgent) : (runMove s (.agent a)).StuckPoll p := by
  rw [runMove_agent h.running h.clocks]
  split
  · next able =>
    rw [Bool.and_eq_true] at able
    have notTimer : a ≠ .timer := fun e => by simp [e, h.timer_disabled] at able
    have notPll : a ≠ .pll p := fun e => by simp [e, agentEnabled, h.dividers] at able
    obtain ⟨expired, settle⟩ := agentEffect_timer s.nextDraw s notTimer
    have pending : pllSettling (agentEffect s.nextDraw a s) p = pllSettling s p := by
      rw [pllSettling, agentEffect_cfg, agentEffect_pllBase, agentEffect_pllStable_get _ _ notPll, pllSettling]
    exact
      { map := by rw [log_cfg, agentEffect_cfg]; exact h.map
        hangs := by rw [log_cfg, agentEffect_cfg]; exact h.hangs
        running := by
          rw [State.ended, log_fault, log_refused, agentEffect_fault, agentEffect_refused]
          exact h.running
        clocks := by rw [clockFault_log]; exact agentEffect_clocks _ a h.clocks
        expired := expired.trans h.expired
        head := by rw [log_master, agentEffect_master]; exact h.head
        covered := by rw [log_toHwState, settle]; exact h.covered
        settling := pending.trans h.settling
        zero := by rw [log_toHwState, agentEffect_pllBase]; exact h.zero }
  · exact h

theorem run (h : s.StuckPoll p) (sched : Nat → Move) (n : Nat) : (runUnder sched s n).StuckPoll p := by
  induction n with
  | zero => exact h
  | succ n ih =>
    rw [runUnder]
    cases sched n with
    | master => exact ih.master
    | agent a => exact ih.agent a

end State.StuckPoll

/-- Settles O39: the step's conditions, both ways, and the run that never leaves the poll. -/
theorem expiryWaitsForSettle : Obligations.ExpiryWaitsForSettle := by
  refine ⟨fun s t e low high => ?_, fun s clean running usable plls clamps => ?_,
    fun s p sched hmap hangs running clean low head covered settling zero master => ?_⟩
  · obtain ⟨-, -, effect⟩ := step_effect e
    have unraised (h : t.tmrExpired = false) {P : Prop} : P := nomatch h.symm.trans high
    cases effect with
    | idle l m ht => exact unraised (by rw [ht]; exact low)
    | event l m v _ ht => exact unraised (by rw [ht]; exact low)
    | write u w d r l m m' hu e ht =>
      obtain ⟨-, -, rfl⟩ := exec_wr_next e
      exact unraised (by rw [ht, hu]; exact storesOf_expired low)
    | agent u x a l hu hp he hc ht =>
      by_cases ha : a = .timer
      · subst ha hu ht
        simp only [agentEnabled, Bool.and_eq_true] at he
        obtain ⟨⟨running, usable⟩, done⟩ := he
        obtain ⟨plls, clamps⟩ := settleDone_iff.1 done
        exact ⟨running, usable, fun p covered => pllHolds_eq_false.1 (plls p covered), clamps⟩
      · exact unraised (by rw [ht, log_toHwState, (agentEffect_timer x u ha).1, hu]; exact low)
  · have done : settleDone s = true :=
      settleDone_iff.2 ⟨fun p covered => pllHolds_eq_false.2 (plls p covered), clamps⟩
    exact agentStepWith_of_clocks clean rfl (by simp [agentEnabled, running, usable, done])
  · have stuck : s.StuckPoll p := ⟨hmap, hangs, running, clean, low, head, covered, settling, zero⟩
    refine ⟨master, 0, fun m _ => ⟨(stuck.run sched m).running, (stuck.run sched m).head, fun a ha steps => ?_⟩⟩
    obtain rfl : HwAgent.timer = a := Option.some.inj ha
    exact absurd steps.2.2 (by rw [(stuck.run sched m).timer_disabled]; decide)

end Sys2Proof.Machine
end

section
/-! PROOFS about the end-state claim as worded (obligation O58, `spec/70_reset_and_hazards.md`): a run from a state of
`Tests.warm`, whose system clock hangs on a PLL in bypass, that ends in `ClockLost SYS`. -/

namespace Sys2Proof.Machine

open Sys2Proof

/-- A run that has ended stays as it is (rules R325, R326). -/
theorem runMove_of_ended {s : State} (h : s.ended = true) (m : Move) : runMove s m = s := if_pos h

theorem runUnder_of_ended {sched : Nat → Move} {s : State} {n : Nat} (h : (runUnder sched s n).ended = true) (k : Nat) :
    runUnder sched s (n + k) = runUnder sched s n := by
  induction k with
  | zero => rfl
  | succ k ih =>
    show runMove (runUnder sched s (n + k)) (sched (n + k)) = _
    rw [ih, runMove_of_ended h]

/-- The master alone for thirteen steps, and then everyone in turn. -/
def masterFirst (n : Nat) : Move := if n < 13 then .master else Tests.ring n

theorem masterFirst_visits (m : Move) (n : Nat) : ∃ j, n ≤ j ∧ masterFirst j = m := by
  obtain ⟨j, late, hj⟩ := Tests.ring_fair m (n + 13)
  exact ⟨j, by omega, by rw [masterFirst, if_neg (by omega), hj]⟩

/-- The Boot Sequencer, called on the chip whose system PLL an earlier stage has left in bypass. -/
def bypassedStart : State :=
  State.load { Tests.warm true with master := { (Tests.warm true).master with resetVector := 0x80108000 } }
    (bootProgram (Tests.warm true).cfg)

theorem bypassedStart_isStart : runBootSequencer 0x80108000 (Tests.warm true) = some bypassedStart :=
  if_pos (by decide)

/-- Step 3 of `program` clears the bypass of a PLL that is not stable any more (rules R146, R182, R280). -/
theorem bypassedRun_lost : (runUnder masterFirst bypassedStart 13).fault = some (.clockLost .sys) := by decide

theorem bypassedRun_early : ∀ n < 13, (runUnder masterFirst bypassedStart n).master.seq ≠ .handedOff := by decide

/-- Settles O58, the negation: the run from the bypassed state never reaches the end state. -/
theorem not_endStateRule : ¬Obligations.EndStateRule := by
  intro claim
  obtain ⟨n, done, -⟩ := claim (Tests.warm true) (Tests.warm_resetOk true) (Tests.warm_preBoot true) bypassedStart
    0x80108000 .p masterFirst (by decide) bypassedStart_isStart (masterFirst_visits .master)
    fun a _ n _ => masterFirst_visits (.agent a) n
  obtain early | ⟨k, rfl⟩ : n < 13 ∨ ∃ k, n = 13 + k := (Nat.lt_or_ge n 13).imp_right Nat.exists_eq_add_of_le
  · exact bypassedRun_early n early done.seq
  · have ended : (runUnder masterFirst bypassedStart 13).ended = true := by rw [State.ended, bypassedRun_lost]; rfl
    have clean := done.marks.1
    rw [runUnder_of_ended ended, bypassedRun_lost] at clean
    cases clean

end Sys2Proof.Machine
end

section
/-! SUPPORT. What the words of the Boot Sequencer mean over any well-formed map: a field of a word laid out from disjoint
fields is the value laid there, and a poll's mask is met bit by bit (rules R104 to R107, R111). -/

namespace Sys2Proof.Machine

open Sys2Proof

/-! ### Masks -/

/-- A poll's mask is met when every bit of the mask is set. -/
theorem meets_mask_iff {w mask : Word} : w &&& mask = mask ↔ ∀ i, mask.getLsbD i = true → w.getLsbD i = true := by
  refine ⟨fun h i hi => ?_, fun h => BitVec.eq_of_getLsbD_eq fun i _ => ?_⟩
  · rw [← h, BitVec.getLsbD_and, Bool.and_eq_true] at hi
    exact hi.1
  · rw [BitVec.getLsbD_and]
    cases hm : mask.getLsbD i with
    | false => exact Bool.and_false _
    | true => rw [h i hm]; rfl

/-- A poll for zero is met when no bit of the mask is set. -/
theorem misses_mask_iff {w mask : Word} : w &&& mask = 0 ↔ ∀ i, mask.getLsbD i = true → w.getLsbD i = false := by
  refine ⟨fun h i hi => ?_, fun h => BitVec.eq_of_getLsbD_eq fun i _ => ?_⟩
  · have bit := congrArg (BitVec.getLsbD · i) h
    simpa [hi] using bit
  · rw [BitVec.getLsbD_and]
    cases hm : mask.getLsbD i with
    | false => simp
    | true => simp [h i hm]

theorem placeBit_bit {lo i : Nat} {b : Bool} : (placeBit lo b).getLsbD i = true ↔ i = lo ∧ lo < 32 ∧ b = true := by
  by_cases h : i < 32
  · rw [placeBit_getLsbD _ _ _ h]
    simp
    omega
  · rw [BitVec.getLsbD_of_ge _ _ (by omega)]
    simp
    omega

theorem placeBit_self {lo : Nat} (h : lo < 32) (b : Bool) : (placeBit lo b).getLsbD lo = b := by
  rw [placeBit_getLsbD _ _ _ h]
  simp

theorem placeBit_other {lo i : Nat} (h : lo ≠ i) (b : Bool) : (placeBit lo b).getLsbD i = false :=
  Bool.eq_false_iff.2 fun e => h (placeBit_bit.1 e).1.symm

/-- A poll of one flag. -/
theorem meets_flag_iff {w : Word} {lo : Nat} (h : lo < 32) :
    w &&& placeBit lo true = placeBit lo true ↔ w.getLsbD lo = true := by
  rw [meets_mask_iff]
  exact ⟨fun e => e lo (placeBit_self h true), fun e i hi => by rwa [(placeBit_bit.1 hi).1]⟩

theorem misses_flag_iff {w : Word} {lo : Nat} (h : lo < 32) : w &&& placeBit lo true = 0 ↔ w.getLsbD lo = false := by
  rw [misses_mask_iff]
  exact ⟨fun e => e lo (placeBit_self h true), fun e i hi => by rwa [(placeBit_bit.1 hi).1]⟩

/-! ### Fields of a layout -/

theorem fieldOf_or (f : FieldPlace) (a b : Word) : fieldOf f (a ||| b) = fieldOf f a ||| fieldOf f b := by
  apply BitVec.eq_of_getLsbD_eq
  intro i _
  simp only [BitVec.getLsbD_or, fieldOf_getLsbD]
  cases decide (i < f.width) <;> cases decide (i < 32) <;> simp

theorem putField_at {f : FieldPlace} {i : Nat} (hi : i < f.width) (hf : f.lo + f.width ≤ 32) (x : Word) :
    (putField f x).getLsbD (f.lo + i) = x.getLsbD i := by
  rw [putField_getLsbD _ _ _ (by omega)]
  simp [hi, show i < 32 by omega]

theorem putField_off {f g : FieldPlace} {i : Nat} (h : f.apart g = true) (hi : i < g.width) (x : Word) :
    (putField f x).getLsbD (g.lo + i) = false := by
  by_cases hw : g.lo + i < 32
  · rw [putField_getLsbD _ _ _ hw]
    simp only [FieldPlace.apart, Bool.or_eq_true, decide_eq_true_eq] at h
    simp
    omega
  · exact BitVec.getLsbD_of_ge _ _ (by omega)

theorem fieldOf_putField_self {f : FieldPlace} (hf : f.lo + f.width ≤ 32) (x : Word) :
    fieldOf f (putField f x) = cutTo f x := by
  apply BitVec.eq_of_getLsbD_eq
  intro i hi
  rw [fieldOf_getLsbD, cutTo_getLsbD]
  by_cases h : i < f.width
  · simp [putField_at h hf, hi]
  · simp [h]

theorem fieldOf_putField_apart {f g : FieldPlace} (h : f.apart g = true) (x : Word) : fieldOf g (putField f x) = 0 := by
  apply BitVec.eq_of_getLsbD_eq
  intro i _
  rw [fieldOf_getLsbD]
  by_cases hi : i < g.width
  · simp [putField_off h hi]
  · simp [hi]

/-- A flag is a field of one bit. -/
theorem placeBit_eq_putField (lo : Nat) (b : Bool) : placeBit lo b = putField ⟨lo, 1⟩ ((BitVec.ofBool b).setWidth 32) := by
  cases b <;> simp [placeBit, putField, cutTo]

theorem fieldOf_placeBit_apart {lo : Nat} {g : FieldPlace} (h : FieldPlace.apart ⟨lo, 1⟩ g = true) (b : Bool) :
    fieldOf g (placeBit lo b) = 0 := by
  rw [placeBit_eq_putField, fieldOf_putField_apart h]

theorem putField_flag_off {f : FieldPlace} {lo : Nat} (h : f.apart ⟨lo, 1⟩ = true) (x : Word) :
    (putField f x).getLsbD lo = false :=
  putField_off h Nat.zero_lt_one x

theorem FieldPlace.apart_comm {f g : FieldPlace} (h : f.apart g = true) : g.apart f = true := by
  rw [FieldPlace.apart, Bool.or_eq_true] at h ⊢
  exact h.symm

/-- The fields of a layout lie in the word, and any two of them apart. -/
theorem layout_parts {m : RegMap} (h : m.placesOk = true) {fs : List FieldPlace} (hfs : fs ∈ m.layouts) :
    (∀ f ∈ fs, 0 < f.width ∧ f.lo + f.width ≤ 32) ∧ fs.Pairwise (fun f g => f.apart g = true) := by
  have ok := List.all_eq_true.1 h fs hfs
  simpa [fieldsOk] using ok

theorem wf_placesOk {cfg : Config} (h : cfg.wf = true) : cfg.map.placesOk = true := by
  simp only [Config.wf, RegMap.wf, Bool.and_eq_true] at h
  exact h.2.1.2

/-! ### Flags at numbered places: gates and partitions -/

/-- Flags of one register stand in its word, no two at one place. -/
theorem flags_parts {m : RegMap} (h : m.placesOk = true) {α : Type} {l : List α} {pos : α → Nat}
    (hl : (l.map fun a => (⟨pos a, 1⟩ : FieldPlace)) ∈ m.layouts) :
    (∀ a ∈ l, pos a < 32) ∧ ∀ a ∈ l, ∀ b ∈ l, pos a = pos b → a = b := by
  obtain ⟨inside, apart⟩ := layout_parts h hl
  refine ⟨fun a ha => ?_, fun a ha b hb same => ?_⟩
  · have fits : pos a + 1 ≤ 32 := (inside _ (List.mem_map_of_mem ha)).2
    omega
  · by_contra ne
    have symm : Std.Symm fun a b : α => FieldPlace.apart ⟨pos a, 1⟩ ⟨pos b, 1⟩ = true := ⟨fun _ _ => FieldPlace.apart_comm⟩
    have places := (List.pairwise_map.1 apart).forall ha hb ne
    simp only [FieldPlace.apart, Bool.or_eq_true, decide_eq_true_eq] at places
    omega

theorem gate_place {m : RegMap} (h : m.placesOk = true) (g : Gate) : m.gate.get g < 32 :=
  (flags_parts h (by simp [RegMap.layouts])).1 g g.mem_all

theorem gate_inj {m : RegMap} (h : m.placesOk = true) {g g' : Gate} (e : m.gate.get g = m.gate.get g') : g = g' :=
  (flags_parts h (by simp [RegMap.layouts])).2 g g.mem_all g' g'.mem_all e

theorem part_place {m : RegMap} (h : m.placesOk = true) (i : Part) : m.partId.get i < 32 :=
  (flags_parts h (l := Part.all) (pos := m.partId.get) (by simp [RegMap.layouts])).1 i i.mem_all

theorem part_inj {m : RegMap} (h : m.placesOk = true) {i j : Part} (e : m.partId.get i = m.partId.get j) : i = j :=
  (flags_parts h (l := Part.all) (pos := m.partId.get) (by simp [RegMap.layouts])).2 i i.mem_all j j.mem_all e

/-- The bits of a word of flags. -/
theorem flagsWord_bit {α : Type} (l : List α) (pos : α → Nat) (x : α → Bool) (i : Nat) :
    (l.foldr (fun a w => placeBit (pos a) (x a) ||| w) 0).getLsbD i = true ↔
      ∃ a ∈ l, i = pos a ∧ pos a < 32 ∧ x a = true := by
  induction l with
  | nil => simp
  | cons a l ih => rw [List.foldr_cons, BitVec.getLsbD_or, Bool.or_eq_true, ih, placeBit_bit]; simp

theorem gatesWord_bit {m : RegMap} (h : m.placesOk = true) (x : PerGate Bool) (i : Nat) :
    (gatesWord m x).getLsbD i = true ↔ ∃ g, i = m.gate.get g ∧ x.get g = true := by
  rw [gatesWord, flagsWord_bit]
  exact ⟨fun ⟨g, _, hi, _, hx⟩ => ⟨g, hi, hx⟩, fun ⟨g, hi, hx⟩ => ⟨g, g.mem_all, hi, gate_place h g, hx⟩⟩

/-- A gate's bit of a word of gates. -/
theorem gatesWord_at {m : RegMap} (h : m.placesOk = true) (x : PerGate Bool) (g : Gate) :
    (gatesWord m x).getLsbD (m.gate.get g) = x.get g := by
  refine Bool.eq_iff_iff.2 ((gatesWord_bit h x _).trans ⟨?_, fun hx => ⟨g, rfl, hx⟩⟩)
  rintro ⟨g', same, hx⟩
  rwa [gate_inj h same]

theorem gatesWord_meets {m : RegMap} (h : m.placesOk = true) (x y : PerGate Bool) :
    gatesWord m x &&& gatesWord m y = gatesWord m y ↔ ∀ g, y.get g = true → x.get g = true := by
  rw [meets_mask_iff]
  refine ⟨fun e g hg => ?_, fun e i hi => ?_⟩
  · have bit := e _ ((gatesWord_bit h y _).2 ⟨g, rfl, hg⟩)
    rwa [gatesWord_at h] at bit
  · obtain ⟨g, rfl, hg⟩ := (gatesWord_bit h y i).1 hi
    rw [gatesWord_at h, e g hg]

theorem gatesWord_misses {m : RegMap} (h : m.placesOk = true) (x y : PerGate Bool) :
    gatesWord m x &&& gatesWord m y = 0 ↔ ∀ g, y.get g = true → x.get g = false := by
  rw [misses_mask_iff]
  refine ⟨fun e g hg => ?_, fun e i hi => ?_⟩
  · have bit := e _ ((gatesWord_bit h y _).2 ⟨g, rfl, hg⟩)
    rwa [gatesWord_at h] at bit
  · obtain ⟨g, rfl, hg⟩ := (gatesWord_bit h y i).1 hi
    rw [gatesWord_at h, e g hg]

theorem partsWord_at {m : RegMap} (h : m.placesOk = true) (x : PerPart Bool) (i : Part) :
    (partsWord m x).getLsbD (m.partId.get i) = x.get i := by
  refine Bool.eq_iff_iff.2 ((flagsWord_bit Part.all m.partId.get x.get _).trans ⟨?_, fun hx => ?_⟩)
  · rintro ⟨j, _, same, _, hx⟩
    rwa [part_inj h same]
  · exact ⟨i, i.mem_all, rfl, part_place h i, hx⟩

theorem partsWord_meets_partMask {m : RegMap} (h : m.placesOk = true) (x : PerPart Bool) (i : Part) :
    partsWord m x &&& partMask m i = partMask m i ↔ x.get i = true := by
  rw [partMask, meets_flag_iff (part_place h i), partsWord_at h]

theorem namesPart_partMask {m : RegMap} (h : m.placesOk = true) (i j : Part) :
    namesPart m (partMask m i) j = true ↔ j = i := by
  rw [namesPart, partMask, placeBit_bit]
  exact ⟨fun ⟨same, _⟩ => part_inj h same, fun e => ⟨by rw [e], part_place h i, rfl⟩⟩

/-! ### The toggle command, the cluster, the countdown -/

theorem partIdPlace {m : RegMap} (h : m.placesOk = true) :
    m.place.partId.lo + m.place.partId.width ≤ 32 ∧ m.place.start < 32 ∧
      m.place.partId.apart ⟨m.place.start, 1⟩ = true := by
  have parts := layout_parts h (fs := [m.place.partId, ⟨m.place.start, 1⟩]) (by simp [RegMap.layouts])
  simp only [List.mem_cons, List.not_mem_nil, or_false, forall_eq_or_imp, forall_eq, List.pairwise_cons] at parts
  obtain ⟨⟨⟨-, inside⟩, -, flag⟩, apart, -⟩ := parts
  exact ⟨inside, by omega, apart⟩

/-- The data of a toggle start of partition `i` (rules R105, R192, R289). -/
def toggleStart (m : RegMap) (i : Part) : Word :=
  placeBit m.place.start true ||| putField m.place.partId (BitVec.ofNat 32 (m.partId.get i))

theorem startsToggleWord_toggleStart {m : RegMap} (h : m.placesOk = true) (i : Part) :
    startsToggleWord m (toggleStart m i) = true := by
  rw [startsToggleWord, toggleStart, BitVec.getLsbD_or, placeBit_self (partIdPlace h).2.1]
  rfl

theorem partOfId_toggleStart {m : RegMap} (h : m.wf = true) (i : Part) :
    partOfId m (partIdOfWord m (toggleStart m i)) = some i := by
  simp only [RegMap.wf, RegMap.codesOk, Bool.and_eq_true, List.all_eq_true, decide_eq_true_eq] at h
  obtain ⟨⟨-, hp⟩, ⟨-, codes⟩, -⟩ := h
  obtain ⟨inside, -, apart⟩ := partIdPlace hp
  have small : (BitVec.ofNat 32 (m.partId.get i)).toNat = m.partId.get i := by
    have := part_place hp i
    rw [BitVec.toNat_ofNat, Nat.mod_eq_of_lt (by omega)]
  have value : partIdOfWord m (toggleStart m i) = BitVec.ofNat 32 (m.partId.get i) := by
    rw [partIdOfWord, toggleStart, fieldOf_or, fieldOf_placeBit_apart (FieldPlace.apart_comm apart),
      fieldOf_putField_self inside, cutTo_of_holds (by simpa [FieldPlace.holds, small] using codes i i.mem_all)]
    exact BitVec.zero_or
  rw [value, partOfId, small]
  cases hf : Part.all.find? (fun j => m.partId.get j == m.partId.get i) with
  | none => simpa using List.find?_eq_none.1 hf i i.mem_all
  | some j =>
    have same := List.find?_some hf
    rw [part_inj hp (eq_of_beq same)]

theorem clusterOfWord_placeBit {m : RegMap} (h : m.placesOk = true) (c : Cluster) :
    clusterOfWord m (placeBit m.place.activeCluster (clusterBit m c)) = c := by
  have parts := layout_parts h (fs := [⟨m.place.activeCluster, 1⟩]) (by simp [RegMap.layouts])
  have inside : m.place.activeCluster < 32 := by
    have fits : m.place.activeCluster + 1 ≤ 32 := (parts.1 _ (List.mem_singleton.2 rfl)).2
    omega
  rw [clusterOfWord, placeBit_self inside, clusterOfBit, clusterBit]
  cases c <;> cases m.effCode <;> rfl

theorem ptvPlace {m : RegMap} (h : m.placesOk = true) :
    m.place.ptv.lo + m.place.ptv.width ≤ 32 ∧ m.place.tmrEn < 32 ∧ m.place.ptv.apart ⟨m.place.tmrEn, 1⟩ = true := by
  have parts := layout_parts h (fs := [m.place.ptv, ⟨m.place.tmrEn, 1⟩]) (by simp [RegMap.layouts])
  simp only [List.mem_cons, List.not_mem_nil, or_false, forall_eq_or_imp, forall_eq, List.pairwise_cons] at parts
  obtain ⟨⟨⟨-, inside⟩, -, flag⟩, apart, -⟩ := parts
  exact ⟨inside, by omega, apart⟩

/-- The data that start a countdown of `ticks` (rules R105, R246, R249). -/
def timerStart (m : RegMap) (ticks : Nat) : Word :=
  placeBit m.place.tmrEn true ||| putField m.place.ptv (BitVec.ofNat 32 ticks)

theorem tmrEn_timerStart {m : RegMap} (h : m.placesOk = true) (ticks : Nat) :
    (timerStart m ticks).getLsbD m.place.tmrEn = true := by
  rw [timerStart, BitVec.getLsbD_or, placeBit_self (ptvPlace h).2.1]
  rfl

theorem ptvOfWord_timerStart {m : RegMap} (h : m.placesOk = true) {ticks : Nat} (hp : ticks < 2 ^ m.place.ptv.width) :
    (ptvOfWord m (timerStart m ticks)).toNat = ticks := by
  obtain ⟨inside, -, apart⟩ := ptvPlace h
  have word : ticks < 2 ^ 32 := hp.trans_le (Nat.pow_le_pow_right (by decide) (by omega))
  have small : (BitVec.ofNat 32 ticks).toNat = ticks := by rw [BitVec.toNat_ofNat, Nat.mod_eq_of_lt word]
  rw [ptvOfWord, timerStart, fieldOf_or, fieldOf_placeBit_apart (FieldPlace.apart_comm apart),
    fieldOf_putField_self inside, cutTo_of_holds (by simpa [FieldPlace.holds, small] using hp)]
  exact (congrArg BitVec.toNat BitVec.zero_or).trans small

theorem expired_place {m : RegMap} (h : m.placesOk = true) : m.place.expired < 32 := by
  have parts := layout_parts h (fs := [⟨m.place.expired, 1⟩]) (by simp [RegMap.layouts])
  have fits : m.place.expired + 1 ≤ 32 := (parts.1 _ (List.mem_singleton.2 rfl)).2
  omega

/-! ### Reset lines -/

theorem linesPlaces {m : RegMap} (h : m.placesOk = true) :
    m.place.nonCpu < 32 ∧ (∀ k, (m.place.lines.get k).lo + (m.place.lines.get k).width ≤ 32) ∧
      (∀ k, (m.place.lines.get k).apart ⟨m.place.nonCpu, 1⟩ = true) ∧
      ∀ k k', k ≠ k' → (m.place.lines.get k).apart (m.place.lines.get k') = true := by
  obtain ⟨inside, apart⟩ :=
    layout_parts h (fs := ⟨m.place.nonCpu, 1⟩ :: LineKind.all.map m.place.lines.get) (by simp [RegMap.layouts])
  obtain ⟨fromFlag, among⟩ := List.pairwise_cons.1 apart
  have flag : m.place.nonCpu + 1 ≤ 32 := (inside _ List.mem_cons_self).2
  have member (k : LineKind) : m.place.lines.get k ∈ LineKind.all.map m.place.lines.get := List.mem_map_of_mem k.mem_all
  have symm : Std.Symm fun k k' => (m.place.lines.get k).apart (m.place.lines.get k') = true :=
    ⟨fun _ _ => FieldPlace.apart_comm⟩
  exact ⟨by omega, fun k => (inside _ (List.mem_cons_of_mem _ (member k))).2,
    fun k => FieldPlace.apart_comm (fromFlag _ (member k)),
    fun k k' ne => (List.pairwise_map.1 among).forall k.mem_all k'.mem_all ne⟩

/-- The bits of a word of lines. -/
theorem linesWord_bit {m : RegMap} (x : Lines) (i : Nat) :
    (linesWord m x).getLsbD i = true ↔
      (placeBit m.place.nonCpu x.nonCpu).getLsbD i = true ∨
        ∃ k, (putField (m.place.lines.get k) (x.core.get k)).getLsbD i = true := by
  have fold (l : List LineKind) :
      (l.foldr (fun k w => putField (m.place.lines.get k) (x.core.get k) ||| w) 0).getLsbD i = true ↔
        ∃ k ∈ l, (putField (m.place.lines.get k) (x.core.get k)).getLsbD i = true := by
    induction l with
    | nil => simp
    | cons k l ih => rw [List.foldr_cons, BitVec.getLsbD_or, Bool.or_eq_true, ih]; simp
  rw [linesWord, BitVec.getLsbD_or, Bool.or_eq_true, fold]
  exact or_congr Iff.rfl ⟨fun ⟨k, _, hk⟩ => ⟨k, hk⟩, fun ⟨k, hk⟩ => ⟨k, k.mem_all, hk⟩⟩

theorem linesWord_nonCpu {m : RegMap} (h : m.placesOk = true) (x : Lines) :
    (linesWord m x).getLsbD m.place.nonCpu = x.nonCpu := by
  obtain ⟨flag, -, apart, -⟩ := linesPlaces h
  refine Bool.eq_iff_iff.2 ((linesWord_bit x _).trans ?_)
  rw [placeBit_self flag]
  refine ⟨?_, .inl⟩
  rintro (hx | ⟨k, hk⟩)
  · exact hx
  · rw [putField_flag_off (apart k)] at hk
    cases hk

theorem linesWord_core {m : RegMap} (h : m.placesOk = true) (x : Lines) {k : LineKind} {n : Nat}
    (hn : n < (m.place.lines.get k).width) :
    (linesWord m x).getLsbD ((m.place.lines.get k).lo + n) = (x.core.get k).getLsbD n := by
  obtain ⟨-, inside, apart, among⟩ := linesPlaces h
  refine Bool.eq_iff_iff.2 ((linesWord_bit x _).trans ⟨?_, fun hx => .inr ⟨k, by rwa [putField_at hn (inside k)]⟩⟩)
  rintro (hx | ⟨k', hk⟩)
  · rw [placeBit_eq_putField, putField_off (FieldPlace.apart_comm (apart k)) hn] at hx
    cases hx
  · by_cases same : k' = k
    · subst same
      rwa [putField_at hn (inside k')] at hk
    · rw [putField_off (among k' k same) hn] at hk
      cases hk

/-- A poll of lines is met when the lines of the mask are asserted. -/
theorem linesWord_meets {m : RegMap} (h : m.placesOk = true) {x y : Lines} (hn : y.nonCpu = true → x.nonCpu = true)
    (hc : ∀ k n, (y.core.get k).getLsbD n = true → (x.core.get k).getLsbD n = true) :
    linesWord m x &&& linesWord m y = linesWord m y := by
  rw [meets_mask_iff]
  intro i hi
  obtain hy | ⟨k, hk⟩ := (linesWord_bit y i).1 hi
  · obtain ⟨rfl, -, hy⟩ := placeBit_bit.1 hy
    rw [linesWord_nonCpu h, hn hy]
  · refine (linesWord_bit x i).2 (.inr ⟨k, ?_⟩)
    have inWord : i < 32 := BitVec.lt_of_getLsbD hk
    rw [putField_getLsbD _ _ _ inWord, Bool.and_eq_true] at hk ⊢
    exact ⟨hk.1, hc k _ hk.2⟩

theorem wf_coreCountOk {cfg : Config} (h : cfg.wf = true) (c : Cluster) (k : LineKind) :
    1 ≤ cfg.ncores.get c ∧ cfg.ncores.get c ≤ (cfg.map.place.lines.get k).width := by
  simp only [Config.wf, Config.coreCountOk, Bool.and_eq_true, List.all_eq_true, decide_eq_true_eq] at h
  obtain ⟨⟨⟨⟨⟨⟨⟨⟨⟨-, ⟨p, e⟩, widths⟩, -⟩, -⟩, -⟩, -⟩, -⟩, -⟩, -⟩, -⟩ := h
  obtain ⟨wp, we⟩ := widths k k.mem_all
  cases c with
  | p => exact ⟨p, wp⟩
  | e => exact ⟨e, we⟩

/-- The lines a word of lines names are those of the cores the cluster has (rules R107, R215). -/
theorem namedLines_linesWord {s : State} (h : s.cfg.wf = true) (c : Cluster) (x : Lines) (k : LineKind) (n : Nat) :
    ((namedLines s c (linesWord s.cfg.map x)).core.get k).getLsbD n =
      ((x.core.get k).getLsbD n && decide (n < s.cfg.ncores.get c)) := by
  have places := wf_placesOk h
  have inside := (linesPlaces places).2.1 k
  have count := wf_coreCountOk h c k
  rw [namedLines, Lines.core_and, BitVec.getLsbD_and, linesOfWord, PerKind.get_ofFn, fieldOf_getLsbD, validLines,
    definedLines, Lines.core_ofCores]
  by_cases hn : n < s.cfg.ncores.get c
  · rw [linesWord_core places x (by omega), presentCores_getLsbD _ _ (by omega)]
    simp [hn, show n < (s.cfg.map.place.lines.get k).width by omega, show n < 32 by omega]
  · by_cases hw : n < 32
    · rw [presentCores_getLsbD _ _ hw]
      simp [hn]
    · simp [hn, hw]

theorem namedLines_linesWord_nonCpu {s : State} (h : s.cfg.wf = true) (c : Cluster) (x : Lines) :
    (namedLines s c (linesWord s.cfg.map x)).nonCpu = x.nonCpu := by
  rw [namedLines, Lines.nonCpu_and, linesOfWord, linesWord_nonCpu (wf_placesOk h)]
  exact Bool.and_true _

/-! ### PLLs -/

theorem pllPlaces {m : RegMap} (h : m.placesOk = true) :
    (m.place.pll.lock < 32 ∧ m.place.pll.enable < 32 ∧ m.place.pll.bypass < 32) ∧
      (m.place.pll.lock ≠ m.place.pll.enable ∧ m.place.pll.lock ≠ m.place.pll.bypass ∧
        m.place.pll.enable ≠ m.place.pll.bypass) ∧
      ∀ f ∈ [m.place.pll.divm, m.place.pll.divn, m.place.pll.divp], f.lo + f.width ≤ 32 ∧
        f.apart ⟨m.place.pll.lock, 1⟩ = true ∧ f.apart ⟨m.place.pll.enable, 1⟩ = true ∧
          f.apart ⟨m.place.pll.bypass, 1⟩ = true := by
  have parts := layout_parts h
    (fs := [m.place.pll.divm, m.place.pll.divn, m.place.pll.divp, ⟨m.place.pll.lock, 1⟩, ⟨m.place.pll.enable, 1⟩,
      ⟨m.place.pll.bypass, 1⟩]) (by simp [RegMap.layouts])
  simp only [List.mem_cons, List.not_mem_nil, or_false, forall_eq_or_imp, forall_eq, List.pairwise_cons] at parts ⊢
  obtain ⟨⟨⟨-, im⟩, ⟨-, i_n⟩, ⟨-, ip⟩, ⟨-, il⟩, ⟨-, ie⟩, -, ib⟩, ⟨-, -, ml, me, mb⟩, ⟨-, nl, ne, nb⟩, ⟨pl, pe, pb⟩, ⟨le, lb⟩, eb, -⟩ :=
    parts
  simp only [FieldPlace.apart, Bool.or_eq_true, decide_eq_true_eq] at le lb eb
  exact ⟨⟨by omega, by omega, by omega⟩, ⟨by omega, by omega, by omega⟩, ⟨im, ml, me, mb⟩, ⟨i_n, nl, ne, nb⟩, ip, pl, pe, pb⟩

theorem divisorsApart {m : RegMap} (h : m.placesOk = true) :
    m.place.pll.divm.apart m.place.pll.divn = true ∧ m.place.pll.divm.apart m.place.pll.divp = true ∧
      m.place.pll.divn.apart m.place.pll.divp = true := by
  have parts := (layout_parts h
    (fs := [m.place.pll.divm, m.place.pll.divn, m.place.pll.divp, ⟨m.place.pll.lock, 1⟩, ⟨m.place.pll.enable, 1⟩,
      ⟨m.place.pll.bypass, 1⟩]) (by simp [RegMap.layouts])).2
  simp only [List.mem_cons, List.not_mem_nil, or_false, forall_eq_or_imp, forall_eq, List.pairwise_cons] at parts
  obtain ⟨⟨mn, mp, -⟩, ⟨np, -⟩, -⟩ := parts
  exact ⟨mn, mp, np⟩

/-- The flags of a `PLL_BASE` word. -/
theorem pllBaseWord_flags {m : RegMap} (h : m.placesOk = true) (b : PllBase) (lock : Bool) :
    (pllBaseWord m b lock).getLsbD m.place.pll.lock = lock ∧
      (pllBaseWord m b lock).getLsbD m.place.pll.enable = b.enable ∧
      (pllBaseWord m b lock).getLsbD m.place.pll.bypass = b.bypass := by
  obtain ⟨⟨inl, ine, inb⟩, ⟨le, lb, eb⟩, divisors⟩ := pllPlaces h
  obtain ⟨-, ml, me, mb⟩ := divisors m.place.pll.divm (by simp)
  obtain ⟨-, nl, ne, nb⟩ := divisors m.place.pll.divn (by simp)
  obtain ⟨-, pl, pe, pb⟩ := divisors m.place.pll.divp (by simp)
  simp only [pllBaseWord, divWord, BitVec.getLsbD_or, putField_flag_off, placeBit_self, placeBit_other, *, ne_eq,
    not_false_eq_true, le.symm, lb.symm, eb.symm, Bool.or_false, Bool.false_or, and_self]

/-- A `PLL_BASE` word is read back as what it was made of. -/
theorem pllBaseOfWord_pllBaseWord {m : RegMap} (h : m.placesOk = true) {b : PllBase} (fits : b.fits m = true)
    (lock : Bool) : pllBaseOfWord m (pllBaseWord m b lock) = b := by
  obtain ⟨-, -, divisors⟩ := pllPlaces h
  obtain ⟨im, ml, me, mb⟩ := divisors m.place.pll.divm (by simp)
  obtain ⟨i_n, nl, ne, nb⟩ := divisors m.place.pll.divn (by simp)
  obtain ⟨ip, pl, pe, pb⟩ := divisors m.place.pll.divp (by simp)
  obtain ⟨mn, mp, np⟩ := divisorsApart h
  obtain ⟨-, enable, bypass⟩ := pllBaseWord_flags h b lock
  simp only [PllBase.fits, Bool.and_eq_true] at fits
  obtain ⟨⟨fm, fn⟩, fp⟩ := fits
  have divm : fieldOf m.place.pll.divm (pllBaseWord m b lock) = b.divm := by
    simp [pllBaseWord, divWord, fieldOf_or, fieldOf_placeBit_apart (FieldPlace.apart_comm ml),
      fieldOf_placeBit_apart (FieldPlace.apart_comm me), fieldOf_placeBit_apart (FieldPlace.apart_comm mb),
      fieldOf_putField_apart (FieldPlace.apart_comm mn), fieldOf_putField_apart (FieldPlace.apart_comm mp),
      fieldOf_putField_self im, cutTo_of_holds fm]
  have divn : fieldOf m.place.pll.divn (pllBaseWord m b lock) = b.divn := by
    simp [pllBaseWord, divWord, fieldOf_or, fieldOf_placeBit_apart (FieldPlace.apart_comm nl),
      fieldOf_placeBit_apart (FieldPlace.apart_comm ne), fieldOf_placeBit_apart (FieldPlace.apart_comm nb),
      fieldOf_putField_apart mn, fieldOf_putField_apart (FieldPlace.apart_comm np),
      fieldOf_putField_self i_n, cutTo_of_holds fn]
  have divp : fieldOf m.place.pll.divp (pllBaseWord m b lock) = b.divp := by
    simp [pllBaseWord, divWord, fieldOf_or, fieldOf_placeBit_apart (FieldPlace.apart_comm pl),
      fieldOf_placeBit_apart (FieldPlace.apart_comm pe), fieldOf_placeBit_apart (FieldPlace.apart_comm pb),
      fieldOf_putField_apart mp, fieldOf_putField_apart np,
      fieldOf_putField_self ip, cutTo_of_holds fp]
  rw [pllBaseOfWord, divm, divn, divp, enable, bypass]

/-- The already-enabled test of rule R279, on the word it reads. -/
theorem enabledTest_iff {cfg : Config} (h : cfg.map.placesOk = true) (p : PllId) (b : PllBase) (lock : Bool) :
    pllBaseWord cfg.map b lock &&& enabledTestMask cfg p = enableMask cfg.map ↔
      b.enable = true ∧ (cfg.checkBypass.get p = true → b.bypass = false) := by
  obtain ⟨⟨-, ine, inb⟩, ⟨-, -, eb⟩, -⟩ := pllPlaces h
  obtain ⟨-, enable, bypass⟩ := pllBaseWord_flags h b lock
  unfold enabledTestMask enableMask bypassMask
  split
  · next check =>
    simp only [check, true_implies]
    constructor
    · intro e
      have atEnable := congrArg (BitVec.getLsbD · cfg.map.place.pll.enable) e
      have atBypass := congrArg (BitVec.getLsbD · cfg.map.place.pll.bypass) e
      simp only [BitVec.getLsbD_and, BitVec.getLsbD_or, enable, bypass, placeBit_self ine, placeBit_self inb,
        placeBit_other eb, placeBit_other eb.symm, Bool.or_true, Bool.or_false, Bool.and_true] at atEnable atBypass
      exact ⟨atEnable, atBypass⟩
    · rintro ⟨on, off⟩
      rw [BitVec.and_or_distrib_left, (misses_flag_iff inb).2 (bypass.trans off), (meets_flag_iff ine).2 (enable.trans on)]
      exact BitVec.zero_or
  · next skip =>
    rw [meets_flag_iff ine, enable]
    simp [skip]

/-- A programmed `PLL_MISC` word is read back. -/
theorem lockEnable_pllMiscWord {m : RegMap} (h : m.placesOk = true) (x : PllMisc) :
    (pllMiscOfWord m (pllMiscWord m x)).lockEnable = x.lockEnable := by
  have parts := layout_parts h (fs := [m.place.setup, ⟨m.place.lockEnable, 1⟩]) (by simp [RegMap.layouts])
  simp only [List.mem_cons, List.not_mem_nil, or_false, forall_eq_or_imp, forall_eq, List.pairwise_cons] at parts
  obtain ⟨⟨-, -, flag⟩, apart, -⟩ := parts
  show (pllMiscWord m x).getLsbD m.place.lockEnable = _
  rw [pllMiscWord, BitVec.getLsbD_or, placeBit_self (by omega), putField_flag_off apart, Bool.or_false]

/-! ### Selectors and status flags -/

theorem sysSrc_kept {m : RegMap} (h : m.placesOk = true) {x : Word} (hx : m.place.sysSrc.holds x = true) :
    fieldOf m.place.sysSrc (putField m.place.sysSrc x) = x := by
  have parts := layout_parts h (fs := [m.place.sysSrc]) (by simp [RegMap.layouts])
  rw [fieldOf_putField_self (parts.1 _ (List.mem_singleton.2 rfl)).2, cutTo_of_holds hx]

theorem cpuSrc_kept {m : RegMap} (h : m.placesOk = true) {x : Word} (hx : m.place.cpuSrc.holds x = true) :
    fieldOf m.place.cpuSrc (putField m.place.cpuSrc x) = x := by
  have parts := layout_parts h (fs := [m.place.cpuSrc]) (by simp [RegMap.layouts])
  rw [fieldOf_putField_self (parts.1 _ (List.mem_singleton.2 rfl)).2, cutTo_of_holds hx]

theorem detBusy_misses {m : RegMap} (h : m.placesOk = true) (b : Bool) (n : Word) :
    (placeBit m.place.detBusy b ||| putField m.place.detCount n) &&& placeBit m.place.detBusy true = 0 ↔ b = false := by
  have parts := layout_parts h (fs := [m.place.detCount, ⟨m.place.detBusy, 1⟩]) (by simp [RegMap.layouts])
  simp only [List.mem_cons, List.not_mem_nil, or_false, forall_eq_or_imp, forall_eq, List.pairwise_cons] at parts
  obtain ⟨⟨-, -, flag⟩, apart, -⟩ := parts
  rw [misses_flag_iff (by omega), BitVec.getLsbD_or, placeBit_self (by omega), putField_flag_off apart, Bool.or_false]

theorem repairPlaces {m : RegMap} (h : m.placesOk = true) :
    m.place.repairReq < 32 ∧ m.place.repairSts < 32 ∧ m.place.repairReq ≠ m.place.repairSts := by
  have parts := layout_parts h (fs := [⟨m.place.repairReq, 1⟩, ⟨m.place.repairSts, 1⟩]) (by simp [RegMap.layouts])
  simp only [List.mem_cons, List.not_mem_nil, or_false, forall_eq_or_imp, forall_eq, List.pairwise_cons] at parts
  obtain ⟨⟨⟨-, req⟩, -, sts⟩, apart, -⟩ := parts
  simp only [FieldPlace.apart, Bool.or_eq_true, decide_eq_true_eq] at apart
  exact ⟨by omega, by omega, by omega⟩

theorem repairSts_meets {m : RegMap} (h : m.placesOk = true) (sts req : Bool) :
    (placeBit m.place.repairSts sts ||| placeBit m.place.repairReq req) &&& placeBit m.place.repairSts true =
      placeBit m.place.repairSts true ↔ sts = true := by
  obtain ⟨-, inside, ne⟩ := repairPlaces h
  rw [meets_flag_iff inside, BitVec.getLsbD_or, placeBit_self inside, placeBit_other ne, Bool.or_false]

theorem nonCpuStatus_misses {m : RegMap} (h : m.placesOk = true) (b : Bool) :
    placeBit m.place.nonCpuInReset b &&& placeBit m.place.nonCpuInReset true = 0 ↔ b = false := by
  have parts := layout_parts h (fs := [⟨m.place.nonCpuInReset, 1⟩]) (by simp [RegMap.layouts])
  have inside : m.place.nonCpuInReset + 1 ≤ 32 := (parts.1 _ (List.mem_singleton.2 rfl)).2
  rw [misses_flag_iff (by omega), placeBit_self (by omega)]

theorem expired_meets {m : RegMap} (h : m.placesOk = true) (b : Bool) :
    placeBit m.place.expired b &&& placeBit m.place.expired true = placeBit m.place.expired true ↔ b = true := by
  rw [meets_flag_iff (expired_place h), placeBit_self (expired_place h)]

end Sys2Proof.Machine
end

section
/-! SUPPORT. Liveness of a fair run: what one assertion about the master's next statements leads to, by the master's own
steps, and by the steps of the agents its polls wait for (rules R60, R111, R322, R323). -/

namespace Sys2Proof.Machine

open Sys2Proof

/-- A run of the kind rule R371 speaks of: the master is scheduled for ever, and every agent but the application CPU's is
treated fairly. -/
structure FairRun where
  sched : Nat → Move
  start : State
  master : MasterRuns sched
  fair : ∀ a, a ≠ .appCpu → Fair sched start a

/-- The `n`-th state of a fair run. -/
def FairRun.state (R : FairRun) (n : Nat) : State := runUnder R.sched R.start n

theorem FairRun.state_succ (R : FairRun) (n : Nat) : R.state (n + 1) = runMove (R.state n) (R.sched n) := rfl

/-- From a state with `P` the run comes to one with `Q`, and `S` holds of the states before it. -/
def LeadsTo (R : FairRun) (S P Q : State → Prop) : Prop :=
  ∀ n, P (R.state n) → ∃ m, n ≤ m ∧ Q (R.state m) ∧ ∀ j, n ≤ j → j < m → S (R.state j)

namespace LeadsTo

variable {R : FairRun} {S P P' Q Q' T : State → Prop}

theorem of_imp (h : ∀ s, P s → Q s) : LeadsTo R S P Q :=
  fun n hn => ⟨n, Nat.le_refl n, h _ hn, fun _ h1 h2 => absurd h1 (Nat.not_le.2 h2)⟩

theorem trans (h : LeadsTo R S P Q) (h' : LeadsTo R S Q T) : LeadsTo R S P T := by
  intro n hn
  obtain ⟨m, le, hq, safe⟩ := h n hn
  obtain ⟨k, le', ht, safe'⟩ := h' m hq
  exact ⟨k, le.trans le', ht, fun j h1 h2 => (Nat.lt_or_ge j m).elim (safe j h1) fun h => safe' j h h2⟩

theorem imp_left (h : ∀ s, P' s → P s) (hl : LeadsTo R S P Q) : LeadsTo R S P' Q := fun n hn => hl n (h _ hn)

theorem imp_right (hl : LeadsTo R S P Q) (h : ∀ s, Q s → Q' s) : LeadsTo R S P Q' := hl.trans (of_imp h)

/-- What remains when the goal may have been reached already. -/
theorem trans_or (h : LeadsTo R S P (fun s => T s ∨ Q s)) (h' : LeadsTo R S Q T) : LeadsTo R S P T := by
  intro n hn
  obtain ⟨m, le, done | hq, safe⟩ := h n hn
  · exact ⟨m, le, done, safe⟩
  · obtain ⟨k, le', ht, safe'⟩ := h' m hq
    exact ⟨k, le.trans le', ht, fun j h1 h2 => (Nat.lt_or_ge j m).elim (safe j h1) fun h => safe' j h h2⟩

/-- The first index from `n` on at which a condition fails, if it ever does. -/
theorem exists_first {p : Nat → Prop} {n : Nat} (h : ¬∀ m, n ≤ m → p m) :
    ∃ m, n ≤ m ∧ ¬p m ∧ ∀ j, n ≤ j → j < m → p j := by
  classical
  have some : ∃ m, n ≤ m ∧ ¬p m := by simpa using h
  exact ⟨Nat.find some, (Nat.find_spec some).1, (Nat.find_spec some).2,
    fun j h1 h2 => by_contra fun hp => Nat.find_min some h2 ⟨h1, hp⟩⟩

/-- An assertion no agent breaks holds until the master's turn comes. -/
theorem master_turn (agents : ∀ s a, P s → P (runMove s (.agent a))) {n : Nat} (hn : P (R.state n)) :
    ∃ m, n ≤ m ∧ R.sched m = .master ∧ ∀ j, n ≤ j → j ≤ m → P (R.state j) := by
  have turn : ¬∀ m, n ≤ m → R.sched m ≠ .master := fun never => by
    obtain ⟨m, le, hm⟩ := R.master n
    exact never m le hm
  obtain ⟨m, le, hm, before⟩ := exists_first turn
  refine ⟨m, le, not_not.1 hm, fun j h1 => ?_⟩
  induction j, h1 using Nat.le_induction with
  | base => exact fun _ => hn
  | succ j h1 ih =>
    intro h2
    rw [R.state_succ]
    cases who : R.sched j with
    | master => exact absurd who (before j h1 h2)
    | agent a => exact agents _ a (ih (Nat.le_of_succ_le h2))

/-- The master's step, whenever it comes. -/
theorem of_master (safe : ∀ s, P s → S s) (agents : ∀ s a, P s → P (runMove s (.agent a)))
    (step : ∀ s, P s → Q (runMove s .master)) : LeadsTo R S P Q := by
  intro n hn
  obtain ⟨m, le, who, holds⟩ := master_turn agents hn
  refine ⟨m + 1, by omega, ?_, fun j h1 h2 => safe _ (holds j h1 (by omega))⟩
  rw [R.state_succ, who]
  exact step _ (holds m le (Nat.le_refl m))

/-- A fair agent that stays enabled until its step brings `D` about brings it about, unless the master's step has led to
the goal before (rules R322, R323). -/
theorem of_helpful {D : State → Prop} {a : HwAgent} (ha : a ≠ .appCpu) (safe : ∀ s, P s → S s)
    (agents : ∀ s b, P s → P (runMove s (.agent b))) (step : ∀ s, P s → Q (runMove s .master) ∨ P (runMove s .master))
    (enabled : ∀ s, P s → ¬D s → agentEnabled s a = true)
    (helps : ∀ s, P s → ¬D s → D (runMove s (.agent a))) : LeadsTo R S P (fun s => Q s ∨ (P s ∧ D s)) := by
  intro n hn
  have waits : ¬∀ m, n ≤ m → P (R.state m) ∧ ¬D (R.state m) := fun always => by
    obtain ⟨m, le, who⟩ := R.fair a ha n fun m le => enabled _ (always m le).1 (always m le).2
    have next := (always (m + 1) (by omega)).2
    rw [R.state_succ, who] at next
    exact next (helps _ (always m le).1 (always m le).2)
  obtain ⟨m, le, failed, before⟩ := exists_first waits
  have safeBefore (j : Nat) (h1 : n ≤ j) (h2 : j < m) : S (R.state j) := safe _ (before j h1 h2).1
  obtain rfl | later := Nat.eq_or_lt_of_le le
  · exact ⟨n, le, .inr ⟨hn, by_contra fun h => failed ⟨hn, h⟩⟩, safeBefore⟩
  · obtain ⟨k, rfl⟩ : ∃ k, m = k + 1 := ⟨m - 1, by omega⟩
    obtain ⟨held, -⟩ := before k (by omega) (by omega)
    refine ⟨k + 1, le, ?_, safeBefore⟩
    rw [R.state_succ] at failed ⊢
    cases who : R.sched k with
    | master =>
      rw [who] at failed
      exact (step _ held).imp_right fun h => ⟨h, by_contra fun hd => failed ⟨h, hd⟩⟩
    | agent b =>
      rw [who] at failed
      exact .inr ⟨agents _ b held, by_contra fun hd => failed ⟨agents _ b held, hd⟩⟩

end LeadsTo

end Sys2Proof.Machine
end

section
/-! SUPPORT. Assertions about the master at a list of statements, and what one statement does to them: a read, a write, a
`Post`, a branch, a poll (rules R60, R110, R111, R297). -/

namespace Sys2Proof.Machine

open Sys2Proof

/-- A run under a configuration that has met nothing wrong (rules R325, R326, R351). -/
structure Steady (cfg : Config) (u : State) : Prop where
  cfg : u.cfg = cfg
  running : u.ended = false
  inv : u.Inv

/-- The master has the statements `ops` still to run, with `M` of its variables and `K` of the hardware. -/
def At (cfg : Config) (ops : List Op) (M : Master → Prop) (K : State → Prop) (s : State) : Prop :=
  ∃ u : State, Steady cfg u ∧ M u.master ∧ K u ∧ s = (u.load ops).settle

/-- `K` speaks of the hardware alone. -/
def OfHardware (K : State → Prop) : Prop := ∀ u v : State, v.toHwState = u.toHwState → v.cfg = u.cfg → K u → K v

/-- `K` speaks of the hardware alone, and no agent breaks it. -/
structure Lasting (cfg : Config) (K : State → Prop) : Prop where
  congr : OfHardware K
  agent : ∀ u x a, Steady cfg u → K u → agentPresent cfg a = true → agentEnabled u a = true → K (agentEffect x a u)

theorem Lasting.and {cfg : Config} {K L : State → Prop} (hK : Lasting cfg K) (hL : Lasting cfg L) :
    Lasting cfg (fun u => K u ∧ L u) where
  congr u v hw hc := fun ⟨k, l⟩ => ⟨hK.congr u v hw hc k, hL.congr u v hw hc l⟩
  agent u x a hu := fun ⟨k, l⟩ hp he => ⟨hK.agent u x a hu k hp he, hL.agent u x a hu l hp he⟩

theorem Steady.congr {cfg : Config} {u v : State} (h : Steady cfg u) (hw : v.toHwState = u.toHwState)
    (hc : v.cfg = u.cfg) (hf : v.fault = u.fault) (hr : v.refused = u.refused) : Steady cfg v where
  cfg := hc.trans h.cfg
  running := by rw [State.ended, hf, hr]; exact h.running
  inv := inv_congr hw hc h.inv

/-- An agent's effect does not look at the master. -/
theorem agentEffect_withMaster (x : Draw) (a : HwAgent) (u : State) (m : Master) :
    agentEffect x a { u with master := m } = { agentEffect x a u with master := m } := by
  cases a with
  | powerGate =>
    show completeToggle x { u with master := m } = { completeToggle x u with master := m }
    cases pending : u.pgPending with
    | none => simp only [completeToggle, pending]
    | some i =>
      cases on : isPowered u i with
      | true =>
        rw [completeToggle_of_powered pending on, completeToggle_of_powered (s := { u with master := m }) pending on]
      | false => 
        rw [completeToggle_of_unpowered pending on,
          completeToggle_of_unpowered (s := { u with master := m }) pending on]
  | _ => rfl

theorem agentEnabled_withMaster (a : HwAgent) (u : State) (m : Master) :
    agentEnabled { u with master := m } a = agentEnabled u a := by
  cases a <;> rfl

/-- Nor do the checks and the stores of a write. -/
theorem ownCheck_load (d : Word) (u : State) (r : Reg) (ops : List Op) : ownCheck d (u.load ops) r = ownCheck d u r := by
  cases r <;> rfl

theorem storesOf_load (d : Word) (u : State) (r : Reg) (ops : List Op) :
    storesOf d (u.load ops) r = (storesOf d u r).load ops := by
  cases r with
  | ramRepair => simp only [storesOf_ramRepair]; rfl
  | tmrPtv => simp only [storesOf_tmrPtv]; rfl
  | _ => rfl

theorem Steady.agent {cfg : Config} {u : State} (h : Steady cfg u) {a : HwAgent} (x : Draw)
    (he : agentEnabled u a = true) : Steady cfg ((agentEffect x a u).log (.agent a)) where
  cfg := (agentEffect_cfg x a u).trans h.cfg
  running := by
    rw [State.ended, log_fault, log_refused, agentEffect_fault, agentEffect_refused]
    exact h.running
  inv := inv_congr (s := agentEffect x a u) rfl rfl (agentEffect_keeps_inv h.inv he)

/-- An agent's turn, while the master has statements to run. -/
theorem runMove_agent_load {cfg : Config} {u : State} (h : Steady cfg u) (ops : List Op) (a : HwAgent) :
    runMove (u.load ops).settle (.agent a) =
      if agentPresent cfg a && agentEnabled u a then
        (((agentEffect u.nextDraw a u).log (.agent a)).load ops).settle
      else (u.load ops).settle := by
  have turn (m : Master) : runMove { u with master := m } (.agent a) =
      if agentPresent cfg a && agentEnabled u a then { (agentEffect u.nextDraw a u).log (.agent a) with master := m }
      else { u with master := m } := by
    rw [runMove_agent (s := { u with master := m }) h.running h.inv.clocks, agentEnabled_withMaster]
    show (if agentPresent u.cfg a && _ then (agentEffect u.nextDraw a { u with master := m }).log (.agent a) else _) = _
    rw [agentEffect_withMaster, h.cfg]
    rfl
  have same : settleOps ((agentEffect u.nextDraw a u).log (.agent a)).cfg 0 ops
      ((agentEffect u.nextDraw a u).log (.agent a)).master = settleOps u.cfg 0 ops u.master := by
    rw [log_cfg, agentEffect_cfg, log_master, agentEffect_master]
  rw [settle_load, settle_load, turn, same]

section
variable {cfg : Config} {R : FairRun} {S : State → Prop} {M M' : Master → Prop} {K K' : State → Prop}
  {ops rest : List Op}

theorem At.agents (hK : Lasting cfg K) (s : State) (a : HwAgent) (h : At cfg ops M K s) :
    At cfg ops M K (runMove s (.agent a)) := by
  obtain ⟨u, hu, hm, hk, rfl⟩ := h
  rw [runMove_agent_load hu]
  split
  · next able =>
    rw [Bool.and_eq_true] at able
    refine ⟨_, hu.agent _ able.2, ?_, ?_, rfl⟩
    · rwa [log_master, agentEffect_master]
    · exact hK.congr (agentEffect u.nextDraw a u) _ rfl rfl (hK.agent u _ a hu hk able.1 able.2)
  · exact ⟨u, hu, hm, hk, rfl⟩

theorem At.safe (hS : OfHardware S) (hK : ∀ u, K u → S u) (s : State) (h : At cfg ops M K s) : S s := by
  obtain ⟨u, -, -, hk, rfl⟩ := h
  exact hS u _ (by rw [settle_toHwState, load_toHwState]) (by rw [settle_cfg, load_cfg]) (hK u hk)

theorem At.mono (hM : ∀ m, M m → M' m) (hK : ∀ u, Steady cfg u → K u → K' u) (s : State) (h : At cfg ops M K s) :
    At cfg ops M' K' s := by
  obtain ⟨u, hu, hm, hk, rfl⟩ := h
  exact ⟨u, hu, hM _ hm, hK u hu hk, rfl⟩

/-- The master's step at a command that completes. -/
theorem runMove_master_of_next {u w : State} {c : Cmd} (hu : u.ended = false)
    (e : issue c (u.load rest) = .next w) : runMove (u.load (.cmd c :: rest)).settle .master = w.settle := by
  have running : ¬(u.load (.cmd c :: rest)).ended = true := by
    rw [State.ended] at hu ⊢
    simpa using hu
  rw [settle_of_cmd (s := u.load (.cmd c :: rest)) rfl, runMove, if_neg running, takeMove, masterStep_of_cmd (rest := rest) rfl]
  show mark _ _ (onNext State.settle (issue c (u.load rest))) = _
  rw [e]
  rfl

/-- A command of the master whose step completes. -/
theorem LeadsTo.cmd {c : Cmd} (hS : OfHardware S) (hK : Lasting cfg K) (safe : ∀ u, K u → S u)
    (step : ∀ u, Steady cfg u → M u.master → K u →
      ∃ w, issue c (u.load rest) = .next w ∧ w.master.prog = rest ∧ Steady cfg w ∧ M' w.master ∧ K' w) :
    LeadsTo R S (At cfg (.cmd c :: rest) M K) (At cfg rest M' K') := by
  refine LeadsTo.of_master (At.safe hS safe) (At.agents hK) fun s ⟨u, hu, hm, hk, e⟩ => ?_
  obtain ⟨w, hw, hp, steady, hm', hk'⟩ := step u hu hm hk
  rw [e, runMove_master_of_next hu.running hw]
  exact ⟨w, steady, hm', hk', by rw [load_same hp]⟩

/-- A read: what it gives is in the master's `v` (rules R84, R110). -/
theorem LeadsTo.read {r : Reg} (hS : OfHardware S) (hK : Lasting cfg K) (safe : ∀ u, K u → S u)
    (present : r.present cfg = true)
    (get : ∀ u, Steady cfg u → M u.master → K u → M' { u.master with v := readValue u r, prog := rest }) :
    LeadsTo R S (At cfg (rdOp r :: rest) M K) (At cfg rest M' K) := by
  refine LeadsTo.cmd hS hK safe fun u hu hm hk => ?_
  have e : exec (.rd r) (u.load rest) = _ := exec_rd_of_present (by rw [load_cfg, hu.cfg]; exact present)
  rw [readValue_load] at e
  exact ⟨_, e, rfl, hu.congr rfl rfl rfl rfl, get u hu hm hk, hK.congr u _ rfl rfl hk⟩

/-- The master's step at a write whose checks pass (rule R85). -/
theorem At.write {r : Reg} {e : Expr} (congr : OfHardware K') (present : r.present cfg = true)
    (keep : ∀ m, M m → M' { m with prog := rest })
    (check : ∀ u, Steady cfg u → M u.master → K u →
      ownCheck (exprValue cfg u.master e) u r = none ∧ clockFault (storesOf (exprValue cfg u.master e) u r) = none)
    (store : ∀ u w, Steady cfg u → M u.master → K u → exec (.wr (exprValue cfg u.master e) r) u = .next w →
      K' (storesOf (exprValue cfg u.master e) u r)) (s : State) (h : At cfg (wrOp r e :: rest) M K s) :
    At cfg rest M' K' (runMove s .master) ∧
      ∃ u : State, M u.master ∧
        (runMove s .master).history = s.history ++ [.wr r (r.addr cfg) (exprValue cfg u.master e)] := by
  obtain ⟨u, hu, hm, hk, rfl⟩ := h
  obtain ⟨unchecked, clean⟩ := check u hu hm hk
  have hp : r.present u.cfg = true := by rw [hu.cfg]; exact present
  have direct := exec_wr_of_clocks hp unchecked clean
  have stored := store u _ hu hm hk direct
  have value : exprValue (u.load rest).cfg (u.load rest).master e = exprValue cfg u.master e := by
    rw [load_cfg, hu.cfg, load_master, exprValue_prog]
  have history : ((u.load rest).stored r (exprValue cfg u.master e)).settle.history =
      u.history ++ [.wr r (r.addr cfg) (exprValue cfg u.master e)] := by
    rw [settle_history, stored_history, load_history, load_cfg, hu.cfg]
  generalize data : exprValue cfg u.master e = d at unchecked clean direct stored value history
  have done : issue (.wr r e) (u.load rest) = .next ((u.load rest).stored r d) := by
    rw [issue, value]
    exact exec_wr_of_clocks hp (by rwa [ownCheck_load]) (by rwa [storesOf_load, clockFault_load])
  have moved : runMove (u.load (wrOp r e :: rest)).settle .master = _ := runMove_master_of_next hu.running done
  rw [moved]
  refine ⟨⟨(u.load rest).stored r d, ?_, ?_, ?_, ?_⟩, u, hm, ?_⟩
  · exact (Steady.mk (by rw [stored_cfg, hu.cfg]) (by rw [State.ended, stored_fault, stored_refused]; exact hu.running)
      (exec_wr_keeps_inv hu.inv direct) : Steady cfg (u.stored r d)).congr (by simp [storesOf_load]) (by simp) (by simp)
      (by simp)
  · rw [stored_master, load_master]
    exact keep _ hm
  · exact congr (storesOf d u r) _ (by simp [storesOf_load]) (by simp) stored
  · rw [load_same (s := (u.load rest).stored r d) (by rw [stored_master, load_master])]
  · rw [data]
    exact history

/-- A write whose checks pass, whenever the master's turn comes. -/
theorem LeadsTo.write {r : Reg} {e : Expr} (hS : OfHardware S) (hK : Lasting cfg K) (safe : ∀ u, K u → S u)
    (congr : OfHardware K') (present : r.present cfg = true) (keep : ∀ m, M m → M' { m with prog := rest })
    (check : ∀ u, Steady cfg u → M u.master → K u →
      ownCheck (exprValue cfg u.master e) u r = none ∧ clockFault (storesOf (exprValue cfg u.master e) u r) = none)
    (store : ∀ u w, Steady cfg u → M u.master → K u → exec (.wr (exprValue cfg u.master e) r) u = .next w →
      K' (storesOf (exprValue cfg u.master e) u r)) :
    LeadsTo R S (At cfg (wrOp r e :: rest) M K) (At cfg rest M' K') :=
  LeadsTo.of_master (At.safe hS safe) (At.agents hK) fun s h => (At.write congr present keep check store s h).1

/-- A `Post` (rule R60). -/
theorem LeadsTo.post {ch : Byte} (hS : OfHardware S) (hK : Lasting cfg K) (safe : ∀ u, K u → S u)
    (keep : ∀ m, M m → M { m with prog := rest }) :
    LeadsTo R S (At cfg (postOp ch :: rest) M K) (At cfg rest M K) :=
  LeadsTo.cmd hS hK safe fun u hu hm hk =>
    ⟨_, rfl, rfl, hu.congr rfl rfl rfl rfl, keep _ hm, hK.congr u _ rfl rfl hk⟩

/-- The master's step at a poll whose read completes (rule R111). -/
theorem runMove_master_poll {r : Reg} {mask want : Word} {u : State} (hu : Steady cfg u)
    (present : r.present cfg = true) :
    runMove (u.load (pollOp r mask want :: rest)).settle .master =
      if readValue u r &&& mask = want then ((u.gotRead r (readValue u r)).load rest).settle
      else ((u.gotRead r (readValue u r)).load (pollOp r mask want :: rest)).settle := by
  have e : exec (.rd r) (u.load rest) = _ := exec_rd_of_present (by rw [load_cfg, hu.cfg]; exact present)
  rw [readValue_load] at e
  have issued : issue (.poll r mask want) (u.load rest) =
      .next (retryPoll r mask want ((u.load rest).gotRead r (readValue u r))) := by rw [issue, e]; rfl
  rw [pollOp, runMove_master_of_next hu.running issued, retryPoll]
  split
  · next found => exact (if_pos found).symm
  · next missed => exact (if_neg missed).symm

/-- A poll under an assertion from which its read gives what it wants (rule R111). -/
theorem LeadsTo.pollNow {r : Reg} {mask want : Word} (hS : OfHardware S) (hK : Lasting cfg K) (safe : ∀ u, K u → S u)
    (congr : OfHardware K') (present : r.present cfg = true) (keep : ∀ m v, M m → M { m with v := v })
    (found : ∀ u, Steady cfg u → K u → readValue u r &&& mask = want ∧ K' u) :
    LeadsTo R S (At cfg (pollOp r mask want :: rest) M K) (At cfg rest M K') := by
  refine LeadsTo.of_master (At.safe hS safe) (At.agents hK) fun s ⟨u, hu, hm, hk, e⟩ => ?_
  obtain ⟨done, hk'⟩ := found u hu hk
  rw [e, runMove_master_poll hu present, if_pos done]
  exact ⟨u.gotRead r (readValue u r), hu.congr rfl rfl rfl rfl, keep u.master _ hm, congr u _ rfl rfl hk', rfl⟩

/-- While a poll waits, a fair agent brings `D` about, unless the poll is done before (rules R111, R322). -/
theorem LeadsTo.pollStage {r : Reg} {mask want : Word} {a : HwAgent} {D : State → Prop} (hS : OfHardware S)
    (hK : Lasting cfg K) (safe : ∀ u, K u → S u) (congr : OfHardware K') (hD : OfHardware D) (present : r.present cfg = true)
    (keep : ∀ m v, M m → M { m with v := v }) (ha : a ≠ .appCpu)
    (found : ∀ u, Steady cfg u → K u → readValue u r &&& mask = want → K' u)
    (helps : ∀ u x, Steady cfg u → K u → ¬D u →
      agentPresent cfg a = true ∧ agentEnabled u a = true ∧ D (agentEffect x a u)) :
    LeadsTo R S (At cfg (pollOp r mask want :: rest) M K)
      (fun s => At cfg rest M K' s ∨ At cfg (pollOp r mask want :: rest) M (fun u => K u ∧ D u) s) := by
  have atHand (s : State) (h : At cfg (pollOp r mask want :: rest) M K s) :
      ∃ u, Steady cfg u ∧ K u ∧ s.toHwState = u.toHwState ∧ s.cfg = u.cfg ∧
        s = (u.load (pollOp r mask want :: rest)).settle := by
    obtain ⟨u, hu, -, hk, rfl⟩ := h
    exact ⟨u, hu, hk, rfl, rfl, rfl⟩
  have stage := LeadsTo.of_helpful (R := R) (S := S) (P := At cfg (pollOp r mask want :: rest) M K)
    (Q := At cfg rest M K') (D := D) (a := a) ha (At.safe hS safe) (At.agents hK) ?step ?enabled ?helps
  case step =>
    rintro s ⟨u, hu, hm, hk, rfl⟩
    rw [runMove_master_poll hu present]
    split
    · next done =>
      exact .inl ⟨u.gotRead r (readValue u r), hu.congr rfl rfl rfl rfl, keep u.master _ hm,
        congr u _ rfl rfl (found u hu hk done), rfl⟩
    · exact .inr ⟨u.gotRead r (readValue u r), hu.congr rfl rfl rfl rfl, keep u.master _ hm,
        hK.congr u _ rfl rfl hk, rfl⟩
  case enabled =>
    intro s h nd
    obtain ⟨u, hu, hk, hw, hc, e⟩ := atHand s h
    have able := (helps u s.nextDraw hu hk fun d => nd (hD u s hw hc d)).2.1
    rw [e, settle_load, agentEnabled_withMaster]
    exact able
  case helps =>
    intro s h nd
    obtain ⟨u, hu, hk, hw, hc, e⟩ := atHand s h
    obtain ⟨present, able, done⟩ := helps u u.nextDraw hu hk fun d => nd (hD u s hw hc d)
    rw [e, runMove_agent_load hu, if_pos (by rw [present, able]; rfl)]
    exact hD (agentEffect u.nextDraw a u) _ rfl rfl done
  refine stage.imp_right fun s hs => hs.imp_right fun ⟨⟨u, hu, hm, hk, e⟩, d⟩ => ?_
  subst e
  exact ⟨u, hu, hm, ⟨hk, hD (u.load (pollOp r mask want :: rest)).settle u rfl rfl d⟩, rfl⟩

/-- A poll that waits for one agent (rule R321). -/
theorem LeadsTo.poll {r : Reg} {mask want : Word} (a : HwAgent) (D : State → Prop) (hS : OfHardware S)
    (hK : Lasting cfg K) (safe : ∀ u, K u → S u) (congr : OfHardware K') (hD : Lasting cfg fun u => K u ∧ D u)
    (hDh : OfHardware D) (present : r.present cfg = true) (keep : ∀ m v, M m → M { m with v := v }) (ha : a ≠ .appCpu)
    (wanted : ∀ u, Steady cfg u → K u → (readValue u r &&& mask = want ↔ D u))
    (found : ∀ u, Steady cfg u → K u → D u → K' u)
    (helps : ∀ u x, Steady cfg u → K u → ¬D u →
      agentPresent cfg a = true ∧ agentEnabled u a = true ∧ D (agentEffect x a u)) :
    LeadsTo R S (At cfg (pollOp r mask want :: rest) M K) (At cfg rest M K') :=
  (LeadsTo.pollStage hS hK safe congr hDh present keep ha
    (fun u hu hk e => found u hu hk ((wanted u hu hk).1 e)) helps).trans_or
    (LeadsTo.pollNow hS hD (fun u h => safe u h.1) congr present keep
      fun u hu h => ⟨(wanted u hu h.1).2 h.2, found u hu h.1 h.2⟩)

/-! Statements that take no step. -/

theorem At.branch {c : Cond} {body : List Op} (s : State) (h : At cfg (ifOps c body ++ rest) M K s) :
    At cfg (body ++ rest) (fun m => M m ∧ condHolds cfg m c = true) K s ∨
      At cfg rest (fun m => M m ∧ condHolds cfg m c = false) K s := by
  obtain ⟨u, hu, hm, hk, rfl⟩ := h
  rw [settle_ifOps, hu.cfg]
  cases holds : condHolds cfg u.master c with
  | true => exact .inl ⟨u, hu, ⟨hm, holds⟩, hk, rfl⟩
  | false => exact .inr ⟨u, hu, ⟨hm, holds⟩, hk, rfl⟩

theorem At.let {a : Assign} (hK : OfHardware K) (keep : ∀ m, M m → M' (runAssign cfg m a)) (s : State)
    (h : At cfg (letOp a :: rest) M K s) : At cfg rest M' K s := by
  obtain ⟨u, hu, hm, hk, rfl⟩ := h
  refine ⟨{ u with master := runAssign cfg u.master a }, hu.congr rfl rfl rfl rfl, keep _ hm, hK u _ rfl rfl hk, ?_⟩
  rw [settle_load, settle_load]
  show _ = { u with master := settleOps u.cfg 0 rest (runAssign cfg u.master a) }
  rw [← hu.cfg]
  rfl

theorem At.advance (hK : OfHardware K) (keep : ∀ m, M m → M' m.advance) (s : State)
    (h : At cfg (.ctl .advance :: rest) M K s) : At cfg rest M' K s := by
  obtain ⟨u, hu, hm, hk, rfl⟩ := h
  refine ⟨{ u with master := u.master.advance }, hu.congr rfl rfl rfl rfl, keep _ hm, hK u _ rfl rfl hk, ?_⟩
  rw [settle_load, settle_load]
  rfl

/-- The jump over the other branch at the end of a branch. -/
theorem At.jump {other : List Op} (s : State)
    (h : At cfg (.ctl (.skipIf .always other.length) :: (other ++ rest)) M K s) : At cfg rest M K s := by
  obtain ⟨u, hu, hm, hk, rfl⟩ := h
  refine ⟨u, hu, hm, hk, ?_⟩
  rw [settle_load, settle_load]
  show { u with master := settleOps u.cfg other.length (other ++ rest) u.master } = _
  rw [settleOps_skip]

/-- Both branches, each as the statements that are run (rule R297). -/
theorem At.branchElse {c : Cond} {body other : List Op} (s : State)
    (h : At cfg (ifElseOps c body other ++ rest) M K s) :
    At cfg (body ++ .ctl (.skipIf .always other.length) :: (other ++ rest)) (fun m => M m ∧ condHolds cfg m c = true) K s ∨
      At cfg (other ++ rest) (fun m => M m ∧ condHolds cfg m c = false) K s := by
  have unfolded : ifElseOps c body other ++ rest =
      ifOps c (body ++ [.ctl (.skipIf .always other.length)]) ++ (other ++ rest) := by
    simp [ifElseOps, ifOps]
  rw [unfolded] at h
  have branches := At.branch s h
  rwa [List.append_assoc] at branches

/-- A soft assertion is passed, or becomes a `Post` (rule R324). -/
theorem At.assert {c : Cond} {ch : Byte} (s : State) (h : At cfg (assertOp c ch :: rest) M K s) :
    At cfg rest M K s ∨ At cfg (postOp ch :: rest) M K s := by
  obtain ⟨u, hu, hm, hk, rfl⟩ := h
  have settled : (u.load (assertOp c ch :: rest)).settle =
      if condHolds u.cfg u.master c then (u.load rest).settle else (u.load (postOp ch :: rest)).settle := by
    rw [settle_load, settle_load, settle_load]
    show { u with master := if condHolds u.cfg u.master c then _ else _ } = _
    split <;> rfl
  rw [settled]
  split
  · exact .inl ⟨u, hu, hm, hk, rfl⟩
  · exact .inr ⟨u, hu, hm, hk, rfl⟩

end

end Sys2Proof.Machine
end

section
/-! SUPPORT. The facts about the hardware that the Boot Sequencer builds up, each with the registers whose writes may break
it; no agent breaks one (rules R58, R59, R92, R371). -/

namespace Sys2Proof.Machine

open Sys2Proof

/-- A fact about the hardware. -/
inductive Fact where
  | clk (g : Gate) (b : Bool)
  | devFree (g : Gate)
  | devHeld (g : Gate)
  | active (c : Cluster)
  | runs (p : PllId)
  | base (p : PllId) (b : PllBase)
  /-- The PLL has stabilised if it is enabled (rule R372 (b)). -/
  | settled (p : PllId)
  /-- The USB PLL's bound is above every one of these durations, or it can stabilise if a countdown waits for it. -/
  | unstuck (ds : List Nat)
  /-- The timer is usable if a PLL is waited for by a fixed delay (rule R372 (j)). -/
  | timerReady
  | lockOn (p : PllId)
  | sysSrc (w : Word)
  | cpuSrc (w : Word)
  | idle
  | powered (i : Part)
  /-- The partition is being powered up, or has been. -/
  | toggling (i : Part)
  | freed (i : Part)
  /-- The partition's clamp is removed, or its removal is pending. -/
  | freeing (i : Part)
  | off (i : Part)
  | measured
  | requested
  | repaired
  | gates (x : PerGate Bool)
  | soft (c : Cluster) (w : Word)
  | held (c : Cluster)
  /-- Core 0's own line, and its lines of `CORE0_ASSERT_MASK`. -/
  | asserted (c : Cluster)
  | released (c : Cluster)
  | watchdog (c : Cluster)
  | nonCpuFree (c : Cluster)
  | nonCpuOut (c : Cluster)
  | mirrored
  | vector (w : Word)
  | fuses (b d : Word)
  /-- The countdown runs, or has expired. -/
  | ticking
  /-- Every PLL the countdown waits for can stabilise. -/
  | tame
  | awaitsPll (p : PllId)
  | awaitsClamp (i : Part)

/-- What a fact says of a state. -/
def Fact.holds (u : State) : Fact → Prop
  | .clk g b => u.clkEnb.get g = b
  | .devFree g => u.rstDev.get g = false
  | .devHeld g => u.rstDev.get g = true
  | .active c => u.activeCluster = c
  | .runs p => (u.pllBase.get p).enable = true ∧ u.pllStable.get p = true
  | .base p b => u.pllBase.get p = b
  | .settled p => (u.pllBase.get p).enable = true → u.pllStable.get p = true
  | .unstuck ds =>
    (∀ d ∈ ds, d < u.cfg.pllStabUs.usb) ∨ (pllHolds u .usb = true → dividersRun u .usb = true)
  | .timerReady =>
    (u.cfg.lockStrategy.sys = .fixedDelay ∨ u.cfg.lockStrategy.cpu = .fixedDelay) → periphUsable u .timer = true
  | .lockOn p => (u.pllMisc.get p).lockEnable = true
  | .sysSrc w => u.sysSrc = w
  | .cpuSrc w => u.cpuSrc = w
  | .idle => u.pgPending = none
  | .powered i => isPowered u i = true ∧ u.pgPending ≠ some i
  | .toggling i =>
    (u.pgPending = some i ∧ isPowered u i = false) ∨ (u.pgPending = none ∧ isPowered u i = true)
  | .freed i => u.clamp.get i = false ∧ u.pgPending ≠ some i
  | .freeing i => (u.clamp.get i = false ∨ u.clampPending.get i = true) ∧ u.pgPending ≠ some i
  | .off i => isPowered u i = false ∧ u.pgPending ≠ some i
  | .measured => u.detBusy = false
  | .requested => u.ramReq = true
  | .repaired => u.ramSts = true
  | .gates x => u.clkEnb = x
  | .soft c w => u.softRst.get c = w
  | .held c => secondaryHeld u c = true
  | .asserted c => ∀ k, k = .cpu ∨ u.cfg.masks.assert.get k = true → lineAsserted u c k 0 = true
  | .released c => ∀ k, k ≠ .wd → lineAsserted u c k 0 = false
  | .watchdog c => u.cfg.masks.assert.wd = true → lineAsserted u c .wd 0 = !u.cfg.masks.release.wd
  | .nonCpuFree c => nonCpuAsserted u c = false
  | .nonCpuOut c => u.nonCpuInReset.get c = false
  | .mirrored => u.softRst.p = u.softRst.e
  | .vector w => u.resetVector = w
  | .fuses b d => bondOutWord u = b ∧ cpuDisableWord u = d
  | .ticking => u.tmrRunning = true ∨ u.tmrExpired = true
  | .tame => ∀ p, u.tmrSettle.pll.get p = true → pllHolds u p = true → dividersRun u p = true
  | .awaitsPll p =>
    (u.cfg.pllPresent p = true ∧ (u.pllBase.get p).enable = true ∧ dividersRun u p = true) ∧
      (u.pllStable.get p = true ∨ (u.tmrExpired = false ∧ u.tmrSettle.pll.get p = true))
  | .awaitsClamp i =>
    u.clampPending.get i = false ∨ (u.tmrExpired = false ∧ u.tmrSettle.clamp.get i = true)

/-- The facts a list names. -/
def Knows (Γ : List Fact) (u : State) : Prop := ∀ f ∈ Γ, f.holds u

/-- A write of register `r` that completes does not break the fact. -/
def Fact.indep (r : Reg) : Fact → Bool
  | .clk _ _ => r != .clkEnb
  | .devFree _ => r != .rstDevSet
  | .devHeld _ => r != .rstDevClr
  | .active _ => r != .clusterControl
  | .runs p | .base p _ | .settled p => r != .pllBase p
  | .unstuck _ => r != .pllBase .usb
  | .timerReady => r != .clkEnb && r != .rstDevSet
  | .lockOn p => r != .pllMisc p
  | .sysSrc _ => r != .sclkBurstPolicy
  | .cpuSrc _ => r != .cclkBurstPolicy
  | .idle | .powered _ | .off _ | .toggling _ | .freed _ | .freeing _ => r != .pwrgateToggle
  | .measured => r != .oscFreqDet
  | .requested | .repaired => r != .ramRepair
  | .gates _ => r != .clkEnb
  | .soft c _ => r != .cpuSoftrstCtrl c
  | .held _ | .fuses _ _ => true
  | .asserted c => r != .rstCmplxClr c
  | .released c => r != .rstCmplxSet c
  | .watchdog c => r != .rstCmplxSet c && r != .rstCmplxClr c
  | .nonCpuFree c => r != .rstCmplxSet c
  | .nonCpuOut c => r != .rstCmplxSet c
  | .mirrored => r != .cpuSoftrstCtrl .p && r != .cpuSoftrstCtrl .e
  | .vector _ => r != .resetVector
  | .ticking => r != .tmrPtv
  | .tame => r != .tmrPtv && PllId.all.all fun p => r != .pllBase p
  | .awaitsPll p => r != .tmrPtv && r != .pllBase p
  | .awaitsClamp _ => r != .tmrPtv && r != .removeClampingCmd

theorem Fact.holds_congr (f : Fact) : OfHardware (fun u => f.holds u) := by
  intro u v hw hc h
  obtain ⟨a⟩ := u
  obtain ⟨b⟩ := v
  obtain rfl : b = a := hw
  obtain rfl : _ = _ := hc
  cases f <;> exact h

theorem knows_congr (Γ : List Fact) : OfHardware (Knows Γ) := fun u v hw hc h f hf => f.holds_congr u v hw hc (h f hf)

/-! ### No agent breaks a fact -/

/-- A PLL that holds up a countdown after an agent's step held it up before. -/
theorem pllHolds_agent {x : Draw} {a : HwAgent} {q : PllId} {u : State} (h : pllHolds (agentEffect x a u) q = true) :
    pllHolds u q = true := by
  simp only [pllHolds, pllSettling, dividersRun, agentEffect_cfg, agentEffect_pllBase, Bool.and_eq_true,
    Bool.not_eq_true', Bool.or_eq_true] at h ⊢
  obtain ⟨⟨⟨present, on⟩, pending⟩, waits⟩ := h
  refine ⟨⟨⟨present, on⟩, Bool.eq_false_iff.2 fun stable => ?_⟩, waits⟩
  rw [agentEffect_stable_mono x a u q stable] at pending
  cases pending

theorem Fact.holds_stabilise {f : Fact} {p : PllId} {u : State} (h : f.holds u) : f.holds (stabilise p u) := by
  have mono (q : PllId) : u.pllStable.get q = true → (stabilise p u).pllStable.get q = true :=
    agentEffect_stable_mono (u.nextDraw) (.pll p) u q
  cases f with
  | runs q => exact ⟨h.1, mono q h.2⟩
  | settled q => exact fun on => mono q (h on)
  | unstuck ds => exact h.imp_right fun calm holds => calm (pllHolds_agent (x := u.nextDraw) (a := .pll p) holds)
  | tame => exact fun q covered holds => h q covered (pllHolds_agent (x := u.nextDraw) (a := .pll p) holds)
  | awaitsPll q => exact ⟨h.1, h.2.imp_left (mono q)⟩
  | _ => exact h

theorem Fact.holds_releaseClamp {f : Fact} {j : Part} {u : State} (h : f.holds u) : f.holds (releaseClamp j u) := by
  have clampOff (i : Part) (hi : u.clamp.get i = false) : (releaseClamp j u).clamp.get i = false := by
    simp only [releaseClamp, PerPart.get_set]
    split
    · rfl
    · exact hi
  have pendingOff (i : Part) (hi : u.clampPending.get i = false) : (releaseClamp j u).clampPending.get i = false := by
    simp only [releaseClamp, PerPart.get_set]
    split
    · rfl
    · exact hi
  cases f with
  | freed i => exact ⟨clampOff i h.1, h.2⟩
  | freeing i =>
    refine ⟨?_, h.2⟩
    by_cases same : i = j
    · subst same
      exact .inl (PerPart.get_set_self ..)
    · refine h.1.imp (clampOff i) fun pending => ?_
      rwa [releaseClamp, PerPart.get_set, if_neg same]
  | awaitsClamp i => exact h.imp_left (pendingOff i)
  | _ => exact h

/-- The completion of a toggle concerns the partition whose toggle is pending alone (rule R193). -/
theorem completeToggle_other {x : Draw} {u : State} {i : Part} (h : u.pgPending ≠ some i) :
    isPowered (completeToggle x u) i = isPowered u i ∧ (completeToggle x u).clamp.get i = u.clamp.get i ∧
      (completeToggle x u).clampPending.get i = u.clampPending.get i := by
  cases pending : u.pgPending with
  | none => simp only [completeToggle, pending, and_self]
  | some j =>
    have ne : i ≠ j := fun e => h (by rw [pending, e])
    cases on : isPowered u j with
    | true =>
      rw [completeToggle_of_powered pending on]
      simp only [isPowered, PerPart.get_set, if_neg ne, and_self]
    | false =>
      rw [completeToggle_of_unpowered pending on]
      simp only [isPowered, PerPart.get_set, if_neg ne, and_self]

/-- All the completion of a toggle touches. -/
theorem completeToggle_frame (x : Draw) (u : State) :
    completeToggle x u =
      { u with
        pwrStatus := (completeToggle x u).pwrStatus, pgPending := (completeToggle x u).pgPending
        clamp := (completeToggle x u).clamp, clampPending := (completeToggle x u).clampPending
        drawn := (completeToggle x u).drawn } := by
  cases pending : u.pgPending with
  | none =>
    have same : completeToggle x u = u := by simp only [completeToggle, pending]
    rw [same]
  | some j =>
    cases on : isPowered u j with
    | true => rw [completeToggle_of_powered pending on]
    | false => rw [completeToggle_of_unpowered pending on]

theorem completeToggle_idle (x : Draw) (u : State) : (completeToggle x u).pgPending = none := by
  cases pending : u.pgPending with
  | none => simp only [completeToggle, pending]
  | some j =>
    cases on : isPowered u j with
    | true => rw [completeToggle_of_powered pending on]
    | false => rw [completeToggle_of_unpowered pending on]

theorem completeToggle_pending_off (x : Draw) {u : State} {i : Part} (h : u.clampPending.get i = false) :
    (completeToggle x u).clampPending.get i = false := by
  cases pending : u.pgPending with
  | none => simpa only [completeToggle, pending] using h
  | some j =>
    cases on : isPowered u j with
    | true =>
      rw [completeToggle_of_powered pending on]
      simp only [PerPart.get_set]
      split
      · rfl
      · exact h
    | false => rw [completeToggle_of_unpowered pending on]; exact h

theorem Fact.holds_completeToggle {f : Fact} {x : Draw} {u : State} (h : f.holds u) : f.holds (completeToggle x u) := by
  have unasked (i : Part) : (completeToggle x u).pgPending ≠ some i := by rw [completeToggle_idle]; simp
  cases f with
  | idle => exact completeToggle_idle x u
  | powered i | off i => exact ⟨(completeToggle_other h.2).1.trans h.1, unasked i⟩
  | toggling i =>
    refine .inr ⟨completeToggle_idle x u, ?_⟩
    obtain ⟨pending, off⟩ | ⟨idle, on⟩ := h
    · rw [completeToggle_of_unpowered pending off]
      exact PerPart.get_set_self ..
    · exact (completeToggle_other (by rw [idle]; simp)).1.trans on
  | freed i => exact ⟨(completeToggle_other h.2).2.1.trans h.1, unasked i⟩
  | freeing i =>
    obtain ⟨-, clamp, pending⟩ := completeToggle_other (x := x) h.2
    exact ⟨h.1.imp clamp.trans pending.trans, unasked i⟩
  | awaitsClamp i =>
    refine h.imp (completeToggle_pending_off x) fun waits => ?_
    rw [completeToggle_frame]
    exact waits
  | _ => rw [completeToggle_frame]; exact h

/-- A countdown expires when nothing it covers holds it up any more (rule R247). -/
theorem Fact.holds_expireTimer {f : Fact} {u : State} (h : f.holds u) (done : settleDone u = true) :
    f.holds (expireTimer u) := by
  obtain ⟨plls, clamps⟩ := settleDone_iff.1 done
  cases f with
  | ticking => exact .inr rfl
  | tame => exact fun p covered => by cases p <;> cases covered
  | awaitsPll p =>
    refine ⟨h.1, .inl (h.2.elim id fun waits => ?_)⟩
    obtain ⟨present, on, runs⟩ := h.1
    have free := plls p waits.2
    show u.pllStable.get p = true
    simpa [pllHolds, pllSettling, present, on, runs] using free
  | awaitsClamp i => exact .inl (h.elim id fun waits => clamps i waits.2)
  | _ => exact h

theorem Fact.holds_syncReset {f : Fact} {c : Cluster} {u : State} (h : f.holds u) : f.holds (syncReset c u) := by
  cases f with
  | nonCpuOut d =>
    show (u.nonCpuInReset.set c false).get d = false
    rw [PerCluster.get_set]
    split
    · rfl
    · exact h
  | _ => exact h

theorem Fact.holds_finishMeasurement {f : Fact} {x : Draw} {u : State} (h : f.holds u) :
    f.holds (finishMeasurement x u) := by
  cases f with
  | measured => rfl
  | _ => exact h

theorem Fact.holds_finishRepair {f : Fact} {u : State} (h : f.holds u) : f.holds (finishRepair u) := by
  cases f with
  | repaired => rfl
  | _ => exact h

theorem Fact.holds_firstFetch {f : Fact} {u : State} (h : f.holds u) : f.holds (firstFetch u) := by
  cases f <;> exact h

/-- No agent breaks a fact. -/
theorem Fact.holds_agent {f : Fact} {u : State} {a : HwAgent} (x : Draw) (h : f.holds u)
    (enabled : agentEnabled u a = true) : f.holds (agentEffect x a u) := by
  cases a with
  | pll p => exact holds_stabilise h
  | freqDet => exact holds_finishMeasurement h
  | powerGate => exact holds_completeToggle h
  | clamp i => exact holds_releaseClamp h
  | ramRepair => exact holds_finishRepair h
  | resetSync c => exact holds_syncReset h
  | timer =>
    rw [agentEnabled, Bool.and_eq_true] at enabled
    exact holds_expireTimer h enabled.2
  | appCpu => exact holds_firstFetch h

theorem knows_lasting (cfg : Config) (Γ : List Fact) : Lasting cfg (Knows Γ) where
  congr := knows_congr Γ
  agent _ x _ _ h _ enabled f hf := f.holds_agent x (h f hf) enabled

/-! ### Writes break the facts of their own registers alone -/

theorem secondaryHeld_of_exec {r : Reg} {d : Word} {u w : State} (e : exec (.wr d r) u = .next w) {c : Cluster}
    (h : secondaryHeld u c = true) : secondaryHeld (storesOf d u r) c = true := by
  have kept (n : Nat) (hn : 1 ≤ n) : lineAsserted u c .cpu n = true → lineAsserted (storesOf d u r) c .cpu n = true := by
    intro line
    have after := exec_wr_keeps_secondary e hn line
    obtain ⟨-, -, rfl⟩ := exec_wr_next e
    exact after
  rw [secondaryHeld, List.all_eq_true] at h ⊢
  intro n hn
  rw [storesOf_cfg] at hn
  have line := h n hn
  rw [Bool.or_eq_true, beq_iff_eq] at line ⊢
  obtain first | line := line
  · exact .inl first
  · exact (Nat.eq_zero_or_pos n).imp id fun pos => kept n pos line

theorem storesOf_rstDevSet_get (d : Word) (u : State) (g : Gate) :
    (storesOf d u .rstDevSet).rstDev.get g = (u.rstDev.get g || d.getLsbD (u.cfg.map.gate.get g)) :=
  PerGate.get_ofFn ..

theorem storesOf_rstDevClr_get (d : Word) (u : State) (g : Gate) :
    (storesOf d u .rstDevClr).rstDev.get g = (u.rstDev.get g && !d.getLsbD (u.cfg.map.gate.get g)) :=
  PerGate.get_ofFn ..

section
variable {f : Fact} {d : Word} {u w : State}

theorem Fact.holds_storedRstSet {c : Cluster} (h : f.holds u) (indep : f.indep (.rstCmplxSet c) = true)
    (e : exec (.wr d (.rstCmplxSet c)) u = .next w) : f.holds (storedRstSet c d u) := by
  have other {q : Cluster} (ne : q ≠ c) : (storedRstSet c d u).rstCmplx.get q = u.rstCmplx.get q ∧
      (storedRstSet c d u).nonCpuInReset.get q = u.nonCpuInReset.get q := by
    simp only [storedRstSet, PerCluster.get_set, if_neg ne, and_self]
  have ne {q : Cluster} (hq : (Reg.rstCmplxSet c != .rstCmplxSet q) = true) : q ≠ c := fun e => by simp [e] at hq
  cases f with
  | held q => exact secondaryHeld_of_exec e h
  | asserted q => exact fun k hk => lineAsserted_storedRstSet (h k hk)
  | released q => exact fun k hk => by rw [lineAsserted, (other (ne indep)).1]; exact h k hk
  | watchdog q =>
    rw [Fact.indep, Bool.and_eq_true] at indep
    exact fun hk => by rw [lineAsserted, (other (ne indep.1)).1]; exact h hk
  | nonCpuFree q => exact (congrArg Lines.nonCpu (other (ne indep)).1).trans h
  | nonCpuOut q => exact (other (ne indep)).2.trans h
  | _ => exact h

theorem Fact.holds_storedRstClr {c : Cluster} (h : f.holds u) (indep : f.indep (.rstCmplxClr c) = true)
    (e : exec (.wr d (.rstCmplxClr c)) u = .next w) : f.holds (storedRstClr c d u) := by
  have other {q : Cluster} (ne : q ≠ c) : (storedRstClr c d u).rstCmplx.get q = u.rstCmplx.get q := by
    simp only [storedRstClr, PerCluster.get_set, if_neg ne]
  have ne {q : Cluster} (hq : (Reg.rstCmplxClr c != .rstCmplxClr q) = true) : q ≠ c := fun e => by simp [e] at hq
  cases f with
  | held q => exact secondaryHeld_of_exec e h
  | asserted q => exact fun k hk => by rw [lineAsserted, other (ne indep)]; exact h k hk
  | released q => exact fun k hk => by rw [lineAsserted_storedRstClr, h k hk, Bool.false_and]
  | watchdog q =>
    rw [Fact.indep, Bool.and_eq_true] at indep
    exact fun hk => by rw [lineAsserted, other (ne indep.2)]; exact h hk
  | nonCpuFree q =>
    show ((u.rstCmplx.set c _).get q).nonCpu = false
    rw [PerCluster.get_set]
    split
    · next same =>
      subst same
      exact (Lines.nonCpu_without ..).trans (Bool.and_eq_false_imp.2 fun on => nomatch on.symm.trans h)
    · exact h
  | _ => exact h

theorem Fact.holds_storedPllBase {q : PllId} (h : f.holds u) (indep : f.indep (.pllBase q) = true) :
    f.holds (storedPllBase q d u) := by
  have ne {p : PllId} (hp : (Reg.pllBase q != .pllBase p) = true) : p ≠ q := fun e => by simp [e] at hp
  have base {p : PllId} (hp : p ≠ q) : (storedPllBase q d u).pllBase.get p = u.pllBase.get p := by
    simp only [storedPllBase, PerPll.get_set, if_neg hp]
  have stable {p : PllId} (hp : p ≠ q) : (storedPllBase q d u).pllStable.get p = u.pllStable.get p := by
    simp only [storedPllBase, PerPll.get_set, if_neg hp]
  cases f with
  | runs p => exact ⟨(congrArg PllBase.enable (base (ne indep))).trans h.1, (stable (ne indep)).trans h.2⟩
  | base p b => exact (base (ne indep)).trans h
  | settled p => exact fun on => (stable (ne indep)).trans (h (by rwa [base (ne indep)] at on))
  | unstuck ds =>
    simp only [Fact.holds, pllHolds, pllSettling, dividersRun, base (ne indep), stable (ne indep)] at h ⊢
    exact h
  | tame => cases q <;> simp [Fact.indep, PllId.all] at indep
  | awaitsPll p =>
    rw [Fact.indep, Bool.and_eq_true] at indep
    simp only [Fact.holds, dividersRun, base (ne indep.2), stable (ne indep.2)] at h ⊢
    exact h
  | _ => exact h

theorem Fact.holds_storedToggle (h : f.holds u) (indep : f.indep .pwrgateToggle = true) :
    f.holds (storedToggle d u) := by
  cases f with
  | idle | powered i | off i | toggling i | freed i | freeing i => simp [Fact.indep] at indep
  | _ => exact h

theorem Fact.holds_storedClamps (h : f.holds u) (indep : f.indep .removeClampingCmd = true) :
    f.holds (storedClamps d u) := by
  cases f with
  | freeing i =>
    refine ⟨h.1.imp_right fun pending => ?_, h.2⟩
    simp only [storedClamps, PerPart.get_ofFn, pending, Bool.true_or]
  | awaitsClamp i => simp [Fact.indep] at indep
  | _ => exact h

theorem Fact.holds_storedTimer (h : f.holds u) (indep : f.indep .tmrPtv = true) :
    f.holds (storesOf d u .tmrPtv) := by
  rw [storesOf_tmrPtv]
  cases f with
  | ticking | tame | awaitsPll p | awaitsClamp i => simp [Fact.indep] at indep
  | _ => exact h

theorem Fact.holds_storedRepair (h : f.holds u) (indep : f.indep .ramRepair = true) :
    f.holds (storesOf d u .ramRepair) := by
  rw [storesOf_ramRepair]
  cases f with
  | requested | repaired => simp [Fact.indep] at indep
  | _ => exact h

theorem Fact.holds_stores {r : Reg} (h : f.holds u) (indep : f.indep r = true) (e : exec (.wr d r) u = .next w) :
    f.holds (storesOf d u r) := by
  cases r with
  | clkEnb => cases f with
    | clk g b | gates x | timerReady => simp [Fact.indep] at indep
    | _ => exact h
  | sclkBurstPolicy => cases f with
    | sysSrc x => simp [Fact.indep] at indep
    | _ => exact h
  | cclkBurstPolicy => cases f with
    | cpuSrc x => simp [Fact.indep] at indep
    | _ => exact h
  | rstDevSet => cases f with
    | devFree g => simp [Fact.indep] at indep
    | devHeld g => exact (storesOf_rstDevSet_get d u g).trans (Bool.or_eq_true_iff.2 (.inl h))
    | timerReady => simp [Fact.indep] at indep
    | _ => exact h
  | rstDevClr => cases f with
    | devFree g => exact (storesOf_rstDevClr_get d u g).trans (Bool.and_eq_false_imp.2 fun on => nomatch on.symm.trans h)
    | devHeld g => simp [Fact.indep] at indep
    | timerReady =>
      intro awaited
      have usable := h awaited
      simp only [periphUsable, Bool.and_eq_true, Bool.not_eq_true'] at usable ⊢
      exact ⟨usable.1, by rw [storesOf_rstDevClr_get, usable.2]; rfl⟩
    | _ => exact h
  | cpuSoftrstCtrl c => cases f with
    | mirrored => cases c <;> simp [Fact.indep] at indep
    | soft q x =>
      have ne : q ≠ c := fun e => by simp [Fact.indep, e] at indep
      exact (PerCluster.get_set ..).trans ((if_neg ne).trans h)
    | _ => exact h
  | pllMisc q => cases f with
    | lockOn p =>
      have ne : p ≠ q := fun e => by simp [Fact.indep, e] at indep
      show ((u.pllMisc.set q _).get p).lockEnable = true
      rw [PerPll.get_set, if_neg ne]
      exact h
    | _ => exact h
  | resetVector => cases f with
    | vector x => simp [Fact.indep] at indep
    | _ => exact h
  | clusterControl => cases f with
    | active c => simp [Fact.indep] at indep
    | _ => exact h
  | rstCmplxSet c => exact holds_storedRstSet h indep e
  | rstCmplxClr c => exact holds_storedRstClr h indep e
  | pllBase p => exact holds_storedPllBase h indep
  | oscFreqDet => cases f with
    | measured => simp [Fact.indep] at indep
    | _ => exact h
  | pwrgateToggle => exact holds_storedToggle h indep
  | removeClampingCmd => exact holds_storedClamps h indep
  | tmrPtv => exact holds_storedTimer h indep
  | ramRepair => exact holds_storedRepair h indep
  | _ => cases f <;> exact h

end

end Sys2Proof.Machine
end

section
/-! PROOFS of what the procedures of the Boot Sequencer lead to: writes over facts, and the waits of rule R249. -/

namespace Sys2Proof.Machine

open Sys2Proof

theorem Knows.subset {Γ Γ' : List Fact} {u : State} (h : Knows Γ' u) (sub : Γ ⊆ Γ') : Knows Γ u := fun f hf => h f (sub hf)

theorem Knows.append {Γ Γ' : List Fact} {u : State} (h : Knows Γ u) (h' : Knows Γ' u) : Knows (Γ ++ Γ') u :=
  fun f hf => (List.mem_append.1 hf).elim (h f) (h' f)

theorem Knows.cons {f : Fact} {Γ : List Fact} {u : State} (hf : f.holds u) (h : Knows Γ u) : Knows (f :: Γ) u :=
  fun g hg => (List.mem_cons.1 hg).elim (fun e => e ▸ hf) (h g)

section
variable {cfg : Config} {R : FairRun} {S : State → Prop} {M M' : Master → Prop} {rest : List Op} {Γ Γ' : List Fact}

/-- A write over facts: each later fact is an earlier one the write does not concern, or one its stores establish. -/
theorem LeadsTo.writeFacts {r : Reg} {e : Expr} (hS : OfHardware S) (safe : ∀ u, Knows Γ u → S u)
    (present : r.present cfg = true) (keep : ∀ m, M m → M' { m with prog := rest })
    (check : ∀ u, Steady cfg u → M u.master → Knows Γ u →
      ownCheck (exprValue cfg u.master e) u r = none ∧ clockFault (storesOf (exprValue cfg u.master e) u r) = none)
    (facts : ∀ f ∈ Γ', (f ∈ Γ ∧ f.indep r = true) ∨
      ∀ u, Steady cfg u → M u.master → Knows Γ u → f.holds (storesOf (exprValue cfg u.master e) u r)) :
    LeadsTo R S (At cfg (wrOp r e :: rest) M (Knows Γ)) (At cfg rest M' (Knows Γ')) :=
  LeadsTo.write hS (knows_lasting cfg Γ) safe (knows_congr Γ') present keep check fun u _ hu hm hk done f hf =>
    (facts f hf).elim (fun ⟨mem, indep⟩ => Fact.holds_stores (hk f mem) indep done) fun establish => establish u hu hm hk

/-- `M` looks neither at the master's `v` nor at its statements. -/
def Loose (M : Master → Prop) : Prop := ∀ m v ops, M m → M { m with v := v, prog := ops }

theorem wf_timerOk (h : cfg.wf = true) : 2 ≤ cfg.tmrMax ∧ cfg.tmrMax < 2 ^ cfg.map.place.ptv.width := by
  simp only [Config.wf, Config.timerOk, Bool.and_eq_true, decide_eq_true_eq] at h
  obtain ⟨⟨⟨⟨⟨⟨⟨⟨-, timer⟩, -⟩, -⟩, -⟩, -⟩, -⟩, -⟩, -⟩ := h
  exact timer

/-- A write that leaves the clocks alone keeps them clean. -/
theorem clean_of_plain {u : State} {r : Reg} (hu : Steady cfg u) (d : Word)
    (hr : ¬(r = .sclkBurstPolicy ∨ r = .cclkBurstPolicy ∨ r = .clkEnb ∨
      ∃ p, r = .pllBase p ∨ r = .pllOutA p ∨ r = .pllOutB p)) : clockFault (storesOf d u r) = none :=
  ((clockFault_storesOf d u r).resolve_right hr).trans hu.inv.clocks

/-- A write that exchanges the facts of its own register. -/
theorem LeadsTo.exchange {r : Reg} {e : Expr} (old new : List Fact) (hS : OfHardware S)
    (safe : ∀ u, Knows (old ++ Γ) u → S u) (present : r.present cfg = true)
    (keep : ∀ m, M m → M' { m with prog := rest }) (indep : ∀ f ∈ Γ, f.indep r = true)
    (check : ∀ u, Steady cfg u → M u.master → Knows (old ++ Γ) u →
      ownCheck (exprValue cfg u.master e) u r = none ∧ clockFault (storesOf (exprValue cfg u.master e) u r) = none)
    (establish : ∀ u, Steady cfg u → M u.master → Knows (old ++ Γ) u →
      Knows new (storesOf (exprValue cfg u.master e) u r)) :
    LeadsTo R S (At cfg (wrOp r e :: rest) M (Knows (old ++ Γ))) (At cfg rest M' (Knows (new ++ Γ))) :=
  LeadsTo.writeFacts hS safe present keep check fun f hf =>
    (List.mem_append.1 hf).symm.imp (fun known => ⟨List.mem_append_right _ known, indep f known⟩)
      fun fresh u hu hm hk => establish u hu hm hk f fresh

/-! ### Waiting for several agents -/

/-- What several agents bring about, each by itself, while a poll waits. -/
theorem LeadsTo.pollStages {r : Reg} {mask want : Word} {K K' : State → Prop} (hS : OfHardware S) (hK : Lasting cfg K)
    (safe : ∀ u, K u → S u) (congr : OfHardware K') (present : r.present cfg = true)
    (keep : ∀ m v, M m → M { m with v := v })
    (found : ∀ u, Steady cfg u → K u → readValue u r &&& mask = want → K' u)
    (stages : List (HwAgent × (State → Prop))) (agents : ∀ x ∈ stages, x.1 ≠ .appCpu)
    (lasting : ∀ x ∈ stages, Lasting cfg x.2)
    (helps : ∀ x ∈ stages, ∀ u y, Steady cfg u → K u → ¬x.2 u →
      agentPresent cfg x.1 = true ∧ agentEnabled u x.1 = true ∧ x.2 (agentEffect y x.1 u)) :
    LeadsTo R S (At cfg (pollOp r mask want :: rest) M K)
      (fun s => At cfg rest M K' s ∨
        At cfg (pollOp r mask want :: rest) M (fun u => K u ∧ ∀ x ∈ stages, x.2 u) s) := by
  induction stages with
  | nil => exact LeadsTo.of_imp fun s h => .inr (At.mono (fun _ h => h) (fun _ _ h => ⟨h, by simp⟩) s h)
  | cons x stages ih =>
    have sub {y} (hy : y ∈ stages) : y ∈ x :: stages := List.mem_cons_of_mem x hy
    have here : x ∈ x :: stages := List.mem_cons_self
    have all : Lasting cfg (fun u => ∀ y ∈ stages, y.2 u) :=
      ⟨fun u v hw hc h y hy => (lasting y (sub hy)).congr u v hw hc (h y hy),
        fun u d a hu h hp he y hy => (lasting y (sub hy)).agent u d a hu (h y hy) hp he⟩
    have earlier := ih (fun y hy => agents y (sub hy)) (fun y hy => lasting y (sub hy)) fun y hy => helps y (sub hy)
    have next := LeadsTo.pollStage (R := R) (M := M) (rest := rest) (mask := mask) (want := want) (K' := K') (D := x.2) hS
      (hK.and all) (fun u h => safe u h.1) congr (lasting x here).congr present keep (agents x here)
      (fun u hu h => found u hu h.1) fun u y hu h => helps x here u y hu h.1
    intro n hn
    obtain ⟨m, le, done | waiting, before⟩ := earlier n hn
    · exact ⟨m, le, .inl done, before⟩
    · obtain ⟨k, le', reached, between⟩ := next m waiting
      refine ⟨k, le.trans le', reached.imp_right fun waiting => ?_,
        fun j h1 h2 => (Nat.lt_or_ge j m).elim (before j h1) fun h => between j h h2⟩
      exact At.mono (fun _ h => h) (fun u _ ⟨⟨hk, hs⟩, hx⟩ => ⟨hk, List.forall_mem_cons.2 ⟨hx, hs⟩⟩) _ waiting

/-! ### The countdown -/

/-- The countdown does not wait for PLL `p` any more. -/
def pllDone (p : PllId) (u : State) : Prop :=
  u.tmrExpired = true ∨ (u.tmrSettle.pll.get p = true → pllHolds u p = false)

/-- The countdown does not wait for the clamp of partition `i` any more. -/
def clampDone (i : Part) (u : State) : Prop :=
  u.tmrExpired = true ∨ (u.tmrSettle.clamp.get i = true → clampSettling u i = false)

theorem agentEffect_clamp_settled {a : HwAgent} (x : Draw) {u : State} {i : Part} (h : clampSettling u i = false) :
    clampSettling (agentEffect x a u) i = false := by
  cases a with
  | powerGate => exact completeToggle_pending_off x h
  | clamp j =>
    simp only [clampSettling, agentEffect, releaseClamp, PerPart.get_set]
    split
    · rfl
    · exact h
  | _ => exact h

theorem pllDone_lasting (p : PllId) : Lasting cfg (pllDone p) where
  congr u v hw hc h := by
    obtain ⟨hw₁⟩ := u
    obtain ⟨hw₂⟩ := v
    obtain rfl : hw₂ = hw₁ := hw
    obtain rfl : _ = _ := hc
    exact h
  agent u x a _ h _ _ := by
    by_cases timer : a = .timer
    · subst timer
      exact .inl rfl
    · obtain ⟨expired, settle⟩ := agentEffect_timer x u timer
      refine h.imp expired.trans fun done covered => Bool.eq_false_iff.2 fun holds => ?_
      rw [settle] at covered
      exact nomatch (pllHolds_agent holds).symm.trans (done covered)

theorem clampDone_lasting (i : Part) : Lasting cfg (clampDone i) where
  congr u v hw hc h := by
    obtain ⟨hw₁⟩ := u
    obtain ⟨hw₂⟩ := v
    obtain rfl : hw₂ = hw₁ := hw
    obtain rfl : _ = _ := hc
    exact h
  agent u x a _ h _ _ := by
    by_cases timer : a = .timer
    · subst timer
      exact .inl rfl
    · obtain ⟨expired, settle⟩ := agentEffect_timer x u timer
      refine h.imp expired.trans fun done covered => agentEffect_clamp_settled x ?_
      rw [settle] at covered
      exact done covered

/-- The settle processes a countdown may wait for, each with the agent that completes it (rule R247). -/
def settleStages : List (HwAgent × (State → Prop)) :=
  PllId.all.map (fun p => (.pll p, pllDone p)) ++ Part.all.map (fun i => (.clamp i, clampDone i))

theorem forall_settleStages {P : HwAgent × (State → Prop) → Prop} :
    (∀ x ∈ settleStages, P x) ↔ (∀ p, P (.pll p, pllDone p)) ∧ ∀ i, P (.clamp i, clampDone i) := by
  simp only [settleStages, List.forall_mem_append, List.forall_mem_map]
  exact and_congr ⟨fun h p => h p p.mem_all, fun h p _ => h p⟩ ⟨fun h i => h i i.mem_all, fun h i _ => h i⟩

/-- A PLL the countdown waits for stabilises, if its dividers let it. -/
theorem pll_helps {p : PllId} {u : State} (x : Draw) (tame : Fact.tame.holds u) (waits : ¬pllDone p u) :
    agentPresent u.cfg (.pll p) = true ∧ agentEnabled u (.pll p) = true ∧ pllDone p (agentEffect x (.pll p) u) := by
  obtain ⟨-, covers⟩ := not_or.1 waits
  obtain ⟨covered, holds⟩ : u.tmrSettle.pll.get p = true ∧ pllHolds u p = true := by simpa using covers
  have runs := tame p covered holds
  simp only [pllHolds, pllSettling, Bool.and_eq_true] at holds
  obtain ⟨⟨⟨present, on⟩, pending⟩, -⟩ := holds
  refine ⟨present, by simp only [agentEnabled, on, pending, runs, Bool.and_self], .inr fun _ => ?_⟩
  have stable : (agentEffect x (.pll p) u).pllStable.get p = true := PerPll.get_set_self ..
  simp only [pllHolds, pllSettling, stable, Bool.not_true, Bool.and_false, Bool.false_and]

theorem clamp_helps {i : Part} {u : State} (x : Draw) (waits : ¬clampDone i u) :
    agentEnabled u (.clamp i) = true ∧ clampDone i (agentEffect x (.clamp i) u) := by
  obtain ⟨-, covers⟩ := not_or.1 waits
  obtain ⟨-, pending⟩ : u.tmrSettle.clamp.get i = true ∧ clampSettling u i = true := by simpa using covers
  exact ⟨pending, .inr fun _ => PerPart.get_set_self ..⟩

theorem settleDone_of_stages {u : State} (running : u.tmrExpired = false)
    (done : (∀ p, pllDone p u) ∧ ∀ i, clampDone i u) : settleDone u = true :=
  settleDone_iff.2 ⟨fun p => (done.1 p).resolve_left (by simp [running]),
    fun i => (done.2 i).resolve_left (by simp [running])⟩

theorem expired_lasting : Lasting cfg (fun u => u.tmrExpired = true) where
  congr u v hw _ h := (congrArg (·.tmrExpired) hw).trans h
  agent u x a _ h _ _ := by
    by_cases timer : a = .timer
    · subst timer
      rfl
    · exact (agentEffect_timer x u timer).1.trans h

/-- A poll of `EXPIRED` ends, if the timer is usable and what the countdown covers can settle (rules R247, R321). -/
theorem LeadsTo.pollExpired (hwf : cfg.map.placesOk = true) (hS : OfHardware S) (safe : ∀ u, Knows Γ u → S u)
    (keep : ∀ m v, M m → M { m with v := v }) (ticking : .ticking ∈ Γ) (tame : .tame ∈ Γ)
    (usable : ∀ u, Steady cfg u → Knows Γ u → periphUsable u .timer = true) :
    LeadsTo R S
      (At cfg (pollOp .tmrSts (placeBit cfg.map.place.expired true) (placeBit cfg.map.place.expired true) :: rest) M (Knows Γ))
      (At cfg rest M (fun u => Knows Γ u ∧ u.tmrExpired = true)) := by
  have known := knows_lasting cfg Γ
  have target : Lasting cfg (fun u => Knows Γ u ∧ u.tmrExpired = true) := known.and expired_lasting
  have wanted (u : State) (hu : Steady cfg u) :
      readValue u .tmrSts &&& placeBit cfg.map.place.expired true = placeBit cfg.map.place.expired true ↔
        u.tmrExpired = true := by
    rw [readValue, hu.cfg]
    exact expired_meets hwf u.tmrExpired
  have each : ∀ x ∈ settleStages, Lasting cfg x.2 := forall_settleStages.2 ⟨pllDone_lasting, clampDone_lasting⟩
  have stages := LeadsTo.pollStages (R := R) (M := M) (rest := rest) (K := Knows Γ) hS known safe target.congr rfl keep
    (fun u hu hk e => ⟨hk, (wanted u hu).1 e⟩) settleStages
    (forall_settleStages.2 ⟨fun p => by simp, fun i => by simp⟩)
    each
    (forall_settleStages.2
      ⟨fun p u x hu hk waits => by
        have helped := pll_helps x (hk _ tame) waits
        rwa [hu.cfg] at helped,
        fun i u x hu hk waits => ⟨rfl, clamp_helps x waits⟩⟩)
  have allDone : Lasting cfg (fun u => ∀ x ∈ settleStages, x.2 u) :=
    ⟨fun u v hw hc h x hx => (each x hx).congr u v hw hc (h x hx),
      fun u d a hu h hp he x hx => (each x hx).agent u d a hu (h x hx) hp he⟩
  refine stages.trans_or (LeadsTo.poll .timer (fun u => u.tmrExpired = true) hS (known.and allDone) (fun u h => safe u h.1)
    target.congr ((known.and allDone).and expired_lasting)
    (expired_lasting (cfg := cfg)).congr rfl keep (by decide)
    (fun u hu _ => wanted u hu) (fun u _ h e => ⟨h.1, e⟩) fun u x hu h pending => ?_)
  have off : u.tmrExpired = false := Bool.eq_false_iff.2 pending
  have running : u.tmrRunning = true := (h.1 _ ticking).resolve_right pending
  have done := settleDone_of_stages off (forall_settleStages.1 h.2)
  exact ⟨rfl, by simp only [agentEnabled, running, usable u hu h.1, done, Bool.and_self], rfl⟩

/-- What the start of a countdown stores (rule R246). -/
theorem storesOf_timerStart {u : State} {ticks : Nat} (hwf : u.cfg.map.placesOk = true)
    (fits : ticks < 2 ^ u.cfg.map.place.ptv.width) :
    (storesOf (timerStart u.cfg.map ticks) u .tmrPtv).tmrRunning = true ∧
      (storesOf (timerStart u.cfg.map ticks) u .tmrPtv).tmrExpired = false ∧
      (storesOf (timerStart u.cfg.map ticks) u .tmrPtv).tmrSettle = settleCovered u ticks := by
  rw [storesOf_tmrPtv]
  simp only [tmrEn_timerStart hwf, ptvOfWord_timerStart hwf fits, if_true, Bool.not_true, Bool.false_and, and_self]

/-- The start of a countdown changes nothing of the PLLs and the clamps. -/
theorem storesOf_tmrPtv_frame (d : Word) (u : State) :
    (storesOf d u .tmrPtv).cfg = u.cfg ∧ (storesOf d u .tmrPtv).pllBase = u.pllBase ∧
      (storesOf d u .tmrPtv).pllStable = u.pllStable ∧ (storesOf d u .tmrPtv).clampPending = u.clampPending := by
  rw [storesOf_tmrPtv]
  exact ⟨rfl, rfl, rfl, rfl⟩

theorem awaitsPll_stored {u : State} {ticks : Nat} {p : PllId} (hwf : u.cfg.map.placesOk = true)
    (fits : ticks < 2 ^ u.cfg.map.place.ptv.width) (present : u.cfg.pllPresent p = true)
    (on : (u.pllBase.get p).enable = true) (runs : dividersRun u p = true) (bound : u.cfg.pllStabUs.get p + 1 ≤ ticks) :
    (Fact.awaitsPll p).holds (storesOf (timerStart u.cfg.map ticks) u .tmrPtv) := by
  obtain ⟨-, expired, settle⟩ := storesOf_timerStart hwf fits
  obtain ⟨hcfg, hbase, hstable, -⟩ := storesOf_tmrPtv_frame (timerStart u.cfg.map ticks) u
  refine ⟨⟨by rw [hcfg]; exact present, by rw [hbase]; exact on, by rw [dividersRun, hbase]; exact runs⟩, ?_⟩
  rw [expired, settle, hstable]
  cases stable : u.pllStable.get p with
  | true => exact .inl rfl
  | false => exact .inr ⟨rfl, by simpa [settleCovered, pllSettling, present, on, stable] using bound⟩

theorem awaitsClamp_stored {u : State} {ticks : Nat} {i : Part} (hwf : u.cfg.map.placesOk = true)
    (fits : ticks < 2 ^ u.cfg.map.place.ptv.width) (bound : u.cfg.clampSettleUs + 1 ≤ ticks) :
    (Fact.awaitsClamp i).holds (storesOf (timerStart u.cfg.map ticks) u .tmrPtv) := by
  obtain ⟨-, expired, settle⟩ := storesOf_timerStart hwf fits
  obtain ⟨-, -, -, hclamp⟩ := storesOf_tmrPtv_frame (timerStart u.cfg.map ticks) u
  show _ ∨ _
  rw [expired, settle, hclamp]
  cases pending : u.clampPending.get i with
  | false => exact .inl rfl
  | true => exact .inr ⟨rfl, by simpa [settleCovered, clampSettling, pending] using bound⟩

/-- One wait of rule R249. `ws` are the facts its countdown starts with. -/
theorem LeadsTo.wait {ticks : Nat} (ws : List Fact) (hwf : cfg.wf = true) (hS : OfHardware S)
    (safe : ∀ u, Knows Γ u → S u) (loose : Loose M)
    (indep : ∀ f ∈ Γ, f.indep .tmrPtv = true) (fits : ticks ≤ cfg.tmrMax)
    (usable : ∀ u, Steady cfg u → Knows Γ u → periphUsable u .timer = true)
    (calm : ∀ u, Steady cfg u → Knows Γ u → ∀ p, pllHolds u p = true → cfg.pllStabUs.get p + 1 ≤ ticks →
      dividersRun u p = true)
    (awaits : ∀ u, Steady cfg u → Knows Γ u → Knows ws (storesOf (timerStart cfg.map ticks) u .tmrPtv)) :
    LeadsTo R S (At cfg (waitTicks cfg.map ticks ++ rest) M (Knows Γ))
      (At cfg rest M (fun u => Knows (ws ++ Γ) u ∧ u.tmrExpired = true)) := by
  have places := wf_placesOk hwf
  have width := (wf_timerOk hwf).2
  have start : LeadsTo R S (At cfg (waitTicks cfg.map ticks ++ rest) M (Knows ([] ++ Γ)))
      (At cfg (pollOp .tmrSts (placeBit cfg.map.place.expired true) (placeBit cfg.map.place.expired true) :: rest) M
        (Knows ((.ticking :: .tame :: ws) ++ Γ))) := by
    refine LeadsTo.exchange [] (.ticking :: .tame :: ws) hS safe rfl (fun m => loose m m.v _) indep
      (fun u hu _ _ => ⟨?_, clean_of_plain hu _ (by simp)⟩) fun u hu _ hk => ?_
    · have span := ptvOfWord_timerStart places (fits.trans_lt width)
      show (if u.cfg.tmrMax < (ptvOfWord u.cfg.map (timerStart cfg.map ticks)).toNat then _ else _) = _
      rw [hu.cfg, span, if_neg (Nat.not_lt.2 fits)]
    · obtain rfl := hu.cfg
      obtain ⟨running, -, settle⟩ := storesOf_timerStart places (fits.trans_lt width)
      obtain ⟨hcfg, hbase, hstable, -⟩ := storesOf_tmrPtv_frame (timerStart u.cfg.map ticks) u
      refine .cons (.inl running) (.cons (fun p covered holds => ?_) (awaits u hu hk))
      have bound : u.cfg.pllStabUs.get p + 1 ≤ ticks := by
        have covered' : (settleCovered u ticks).pll.get p = true := settle ▸ covered
        simp only [settleCovered, PerPll.get_ofFn, Bool.and_eq_true, decide_eq_true_eq] at covered'
        exact covered'.2
      have before : pllHolds u p = true := by
        have after : pllHolds (storesOf (timerStart u.cfg.map ticks) u .tmrPtv) p = true := holds
        rwa [pllHolds, pllSettling, dividersRun, hcfg, hbase, hstable] at after
      show dividersRun (storesOf (timerStart u.cfg.map ticks) u .tmrPtv) p = true
      rw [dividersRun, hbase]
      exact calm u hu hk p before bound
  refine start.trans ((LeadsTo.pollExpired places hS (fun u h => safe u (h.subset (List.subset_append_right _ _)))
    (fun m v => loose m v _) (by simp) (by simp)
    fun u hu hk => usable u hu (hk.subset (List.subset_append_right _ _))).imp_right
      (At.mono (fun _ h => h) fun u _ h => ⟨h.1.subset ?_, h.2⟩))
  exact fun f hf => List.mem_cons_of_mem _ (List.mem_cons_of_mem _ hf)

/-- A stall whose span fits the countdown (rule R249). `ws` are the facts its first countdown starts with, and `fs` what
they have become when it has expired. -/
theorem LeadsTo.stall {d : Nat} (ws fs : List Fact) (hwf : cfg.wf = true) (hS : OfHardware S)
    (safe : ∀ u, Knows Γ u → S u) (loose : Loose M) (indep : ∀ f ∈ Γ, f.indep .tmrPtv = true)
    (indep' : ∀ f ∈ fs, f.indep .tmrPtv = true) (fits : d ≤ stallSpan cfg)
    (usable : ∀ u, Steady cfg u → Knows Γ u → periphUsable u .timer = true)
    (calm : ∀ u, Steady cfg u → Knows Γ u → ∀ p, pllHolds u p = true → cfg.pllStabUs.get p ≤ d →
      dividersRun u p = true)
    (awaits : ∀ u, Steady cfg u → Knows Γ u → Knows ws (storesOf (timerStart cfg.map (d + 1)) u .tmrPtv))
    (done : ∀ u, Steady cfg u → Knows (ws ++ Γ) u → u.tmrExpired = true → Knows fs u) :
    LeadsTo R S (At cfg (stallUs cfg d ++ rest) M (Knows Γ)) (At cfg rest M (Knows (fs ++ Γ))) := by
  have two := (wf_timerOk hwf).1
  rw [stallSpan] at fits
  have sub : Γ ⊆ fs ++ Γ := List.subset_append_right _ _
  have first (rest' : List Op) :
      LeadsTo R S (At cfg (waitTicks cfg.map (d + 1) ++ rest') M (Knows Γ)) (At cfg rest' M (Knows (fs ++ Γ))) :=
    (LeadsTo.wait ws hwf hS safe loose indep (by omega) usable
      (fun u hu hk p holds bound => calm u hu hk p holds (by omega)) awaits).imp_right
      (At.mono (fun _ h => h) fun u hu h => (done u hu h.1 h.2).append (h.1.subset (List.subset_append_right _ _)))
  obtain short | full : d < cfg.tmrMax - 1 ∨ d = cfg.tmrMax - 1 := by omega
  · have shape : stallUs cfg d = waitTicks cfg.map (d + 1) := by
      rw [stallUs, stallSpan, Nat.div_eq_of_lt short, Nat.mod_eq_of_lt short]
      rfl
    rw [shape]
    exact first rest
  · have shape : stallUs cfg d = waitTicks cfg.map (d + 1) ++ waitTicks cfg.map 1 := by
      rw [stallUs, stallSpan, ← full, Nat.div_self (by omega), Nat.mod_self, show cfg.tmrMax = d + 1 by omega]
      simp
    rw [shape, List.append_assoc]
    refine (first _).trans ((LeadsTo.wait [] hwf hS (fun u h => safe u (h.subset sub)) loose ?_ (by omega)
      (fun u hu hk => usable u hu (hk.subset sub))
      (fun u hu hk p holds bound => calm u hu (hk.subset sub) p holds (by omega)) fun _ _ _ f hf => nomatch hf).imp_right
        (At.mono (fun _ h => h) fun u _ h => h.1))
    exact fun f hf => (List.mem_append.1 hf).elim (indep' f) (indep f)

end

end Sys2Proof.Machine
end

section
/-! PROOFS of what the procedures of the Boot Sequencer lead to: reads with branches, the toggle of a partition, RAM repair
and the removal of the clamps (rules R289 to R292). -/

namespace Sys2Proof.Machine

open Sys2Proof

section
variable {cfg : Config} {R : FairRun} {S : State → Prop} {M M' : Master → Prop} {K : State → Prop} {rest : List Op}
  {Γ Γ' : List Fact} {Q : State → Prop}

/-! ### Rules over facts -/

/-- A case split on a fact the state decides. -/
theorem LeadsTo.split {ops : List Op} (f g : Fact) (cases : ∀ u, Steady cfg u → Knows Γ u → f.holds u ∨ g.holds u)
    (hf : LeadsTo R S (At cfg ops M (Knows (f :: Γ))) Q) (hg : LeadsTo R S (At cfg ops M (Knows (g :: Γ))) Q) :
    LeadsTo R S (At cfg ops M (Knows Γ)) Q := by
  intro n hn
  obtain ⟨u, hu, hm, hk, e⟩ := hn
  exact (cases u hu hk).elim (fun h => hf n ⟨u, hu, hm, .cons h hk, e⟩) fun h => hg n ⟨u, hu, hm, .cons h hk, e⟩

/-- A value of the state is given a name. -/
theorem LeadsTo.choose {α : Type} {ops : List Op} (f : α → Fact)
    (some : ∀ u, Steady cfg u → Knows Γ u → ∃ x, (f x).holds u)
    (h : ∀ x, LeadsTo R S (At cfg ops M (Knows (f x :: Γ))) Q) : LeadsTo R S (At cfg ops M (Knows Γ)) Q := by
  intro n hn
  obtain ⟨u, hu, hm, hk, e⟩ := hn
  obtain ⟨x, hx⟩ := some u hu hk
  exact h x n ⟨u, hu, hm, .cons hx hk, e⟩

/-- A value of the master is given a name. -/
theorem LeadsTo.chooseMaster {α : Type} {ops : List Op} (f : Master → α)
    (h : ∀ x, LeadsTo R S (At cfg ops (fun m => M m ∧ f m = x) K) Q) : LeadsTo R S (At cfg ops M K) Q := by
  intro n hn
  obtain ⟨u, hu, hm, hk, e⟩ := hn
  exact h _ n ⟨u, hu, ⟨hm, rfl⟩, hk, e⟩

theorem LeadsTo.cases {P P' : State → Prop} (h : LeadsTo R S P Q) (h' : LeadsTo R S P' Q) :
    LeadsTo R S (fun s => P s ∨ P' s) Q := fun n hn => hn.elim (h n) (h' n)

/-- What is known may be known in another form. -/
theorem LeadsTo.weaken {ops : List Op} (h : LeadsTo R S (At cfg ops M (Knows Γ')) Q)
    (sub : ∀ u, Steady cfg u → Knows Γ u → Knows Γ' u) : LeadsTo R S (At cfg ops M (Knows Γ)) Q :=
  h.imp_left (At.mono (fun _ h => h) sub)

theorem LeadsTo.conclude {ops : List Op} {P : State → Prop} (h : LeadsTo R S P (At cfg ops M (Knows Γ)))
    (sub : ∀ u, Steady cfg u → Knows Γ u → Knows Γ' u) : LeadsTo R S P (At cfg ops M (Knows Γ')) :=
  h.imp_right (At.mono (fun _ h => h) sub)

/-- A poll that waits for one agent to bring a fact about. -/
theorem LeadsTo.pollFact {r : Reg} {mask want : Word} (a : HwAgent) (f : Fact) (hS : OfHardware S)
    (safe : ∀ u, Knows Γ u → S u) (loose : Loose M) (present : r.present cfg = true) (ha : a ≠ .appCpu)
    (wanted : ∀ u, Steady cfg u → Knows Γ u → (readValue u r &&& mask = want ↔ f.holds u))
    (helps : ∀ u x, Steady cfg u → Knows Γ u → ¬f.holds u →
      agentPresent cfg a = true ∧ agentEnabled u a = true ∧ f.holds (agentEffect x a u)) :
    LeadsTo R S (At cfg (pollOp r mask want :: rest) M (Knows Γ)) (At cfg rest M (Knows (f :: Γ))) :=
  have lasting : Lasting cfg (fun u => Knows Γ u ∧ f.holds u) :=
    (knows_lasting cfg Γ).and ⟨f.holds_congr, fun _ x _ _ h _ enabled => f.holds_agent x h enabled⟩
  LeadsTo.poll a (fun u => f.holds u) hS (knows_lasting cfg Γ) safe (knows_congr _) lasting f.holds_congr present
    (fun m v => loose m v m.prog) ha wanted (fun _ _ hk hf => .cons hf hk) helps

/-- A poll for what is known already. -/
theorem LeadsTo.pollKnown {r : Reg} {mask want : Word} (hS : OfHardware S) (safe : ∀ u, Knows Γ u → S u) (loose : Loose M)
    (present : r.present cfg = true) (found : ∀ u, Steady cfg u → Knows Γ u → readValue u r &&& mask = want) :
    LeadsTo R S (At cfg (pollOp r mask want :: rest) M (Knows Γ)) (At cfg rest M (Knows Γ)) :=
  LeadsTo.pollNow hS (knows_lasting cfg Γ) safe (knows_congr Γ) present (fun m v => loose m v m.prog)
    fun u hu hk => ⟨found u hu hk, hk⟩

/-! ### Branches on what has been read -/

theorem At.empty {ops : List Op} {s : State} (hM : ∀ m, ¬M m) (h : At cfg ops M K s) : False :=
  have ⟨_, _, hm, _⟩ := h
  hM _ hm

theorem LeadsTo.readTaken {r : Reg} {c : Cond} {body : List Op} (hS : OfHardware S) (hK : Lasting cfg K)
    (safe : ∀ u, K u → S u) (loose : Loose M) (present : r.present cfg = true)
    (taken : ∀ u ops, Steady cfg u → M u.master → K u →
      condHolds cfg { u.master with v := readValue u r, prog := ops } c = true) :
    LeadsTo R S (At cfg (rdOp r :: (ifOps c body ++ rest)) M K) (At cfg (body ++ rest) M K) := by
  refine (LeadsTo.read (M' := fun m => M m ∧ condHolds cfg m c = true) hS hK safe present
    fun u hu hm hk => ⟨loose _ _ _ hm, taken u _ hu hm hk⟩).imp_right fun s hs => ?_
  obtain branch | branch := At.branch s hs
  · exact At.mono (fun _ h => h.1.1) (fun _ _ h => h) s branch
  · exact (At.empty (fun _ h => nomatch h.1.2.symm.trans h.2) branch).elim

theorem LeadsTo.readSkipped {r : Reg} {c : Cond} {body : List Op} (hS : OfHardware S) (hK : Lasting cfg K)
    (safe : ∀ u, K u → S u) (loose : Loose M) (present : r.present cfg = true)
    (skipped : ∀ u ops, Steady cfg u → M u.master → K u →
      condHolds cfg { u.master with v := readValue u r, prog := ops } c = false) :
    LeadsTo R S (At cfg (rdOp r :: (ifOps c body ++ rest)) M K) (At cfg rest M K) := by
  refine (LeadsTo.read (M' := fun m => M m ∧ condHolds cfg m c = false) hS hK safe present
    fun u hu hm hk => ⟨loose _ _ _ hm, skipped u _ hu hm hk⟩).imp_right fun s hs => ?_
  obtain branch | branch := At.branch s hs
  · exact (At.empty (fun _ h => nomatch h.2.symm.trans h.1.2) branch).elim
  · exact At.mono (fun _ h => h.1.1) (fun _ _ h => h) s branch

theorem LeadsTo.readFirst {r : Reg} {c : Cond} {body other : List Op} (hS : OfHardware S) (hK : Lasting cfg K)
    (safe : ∀ u, K u → S u) (loose : Loose M) (present : r.present cfg = true)
    (taken : ∀ u ops, Steady cfg u → M u.master → K u →
      condHolds cfg { u.master with v := readValue u r, prog := ops } c = true) :
    LeadsTo R S (At cfg (rdOp r :: (ifElseOps c body other ++ rest)) M K)
      (At cfg (body ++ .ctl (.skipIf .always other.length) :: (other ++ rest))
        (fun m => M m ∧ condHolds cfg m c = true) K) := by
  refine (LeadsTo.read (M' := fun m => M m ∧ condHolds cfg m c = true) hS hK safe present
    fun u hu hm hk => ⟨loose _ _ _ hm, taken u _ hu hm hk⟩).imp_right fun s hs => ?_
  obtain branch | branch := At.branchElse s hs
  · exact At.mono (fun _ h => h.1) (fun _ _ h => h) s branch
  · exact (At.empty (fun _ h => nomatch h.1.2.symm.trans h.2) branch).elim

theorem LeadsTo.readSecond {r : Reg} {c : Cond} {body other : List Op} (hS : OfHardware S) (hK : Lasting cfg K)
    (safe : ∀ u, K u → S u) (loose : Loose M) (present : r.present cfg = true)
    (skipped : ∀ u ops, Steady cfg u → M u.master → K u →
      condHolds cfg { u.master with v := readValue u r, prog := ops } c = false) :
    LeadsTo R S (At cfg (rdOp r :: (ifElseOps c body other ++ rest)) M K) (At cfg (other ++ rest) M K) := by
  refine (LeadsTo.read (M' := fun m => M m ∧ condHolds cfg m c = false) hS hK safe present
    fun u hu hm hk => ⟨loose _ _ _ hm, skipped u _ hu hm hk⟩).imp_right fun s hs => ?_
  obtain branch | branch := At.branchElse s hs
  · exact (At.empty (fun _ h => nomatch h.2.symm.trans h.1.2) branch).elim
  · exact At.mono (fun _ h => h.1.1) (fun _ _ h => h) s branch

/-! ### Power (rules R289, R290, R291) -/

/-- A toggle start of a partition that is off passes its checks (rules R192, R202). -/
theorem ownCheck_toggleStart {u : State} {i : Part} (hwf : u.cfg.map.wf = true) (idle : u.pgPending = none)
    (off : isPowered u i = false) (rail : i = .nonCpuP ∨ i = .cpu0P → isPowered u .rail = true) :
    ownCheck (toggleStart u.cfg.map i) u .pwrgateToggle = none := by
  have places : u.cfg.map.placesOk = true := by
    simp only [RegMap.wf, Bool.and_eq_true] at hwf
    exact hwf.1.2
  have depends : breaksDependency u i = false := by
    cases i with
    | rail => rw [breaksDependency, off]; rfl
    | nonCpuP => rw [breaksDependency, rail (.inl rfl)]; simp
    | cpu0P => rw [breaksDependency, rail (.inr rfl)]; simp
    | nonCpuE | cpuE => rfl
  simp only [ownCheck, startsToggleWord_toggleStart places, partOfId_toggleStart hwf, toggleBusy, idle, depends,
    Option.isSome_none, Bool.false_eq_true, if_true, if_false]

theorem storesOf_toggleStart {u : State} (hwf : u.cfg.map.wf = true) (i : Part) :
    (storesOf (toggleStart u.cfg.map i) u .pwrgateToggle).pgPending = some i := by
  have places : u.cfg.map.placesOk = true := by
    simp only [RegMap.wf, Bool.and_eq_true] at hwf
    exact hwf.1.2
  show (if startsToggleWord u.cfg.map (toggleStart u.cfg.map i) = true then _ else _) = _
  rw [if_pos (startsToggleWord_toggleStart places i), partOfId_toggleStart hwf]

theorem wf_map {cfg : Config} (h : cfg.wf = true) : cfg.map.wf = true := by
  simp only [Config.wf, Bool.and_eq_true] at h
  exact h.2

/-- What survives the toggles of other partitions. -/
def OutlastsToggles (Γ : List Fact) : Prop := ∀ f ∈ Γ, f.indep .pwrgateToggle = true ∨ ∃ j, f = .powered j

theorem OutlastsToggles.cons {i : Part} (h : OutlastsToggles Γ) : OutlastsToggles (.powered i :: Γ) :=
  List.forall_mem_cons.2 ⟨.inr ⟨i, rfl⟩, h⟩

/-- `powerUp(i)` (rule R289). -/
theorem LeadsTo.powerUp {i : Part} (hwf : cfg.wf = true) (hS : OfHardware S) (safe : ∀ u, Knows Γ u → S u)
    (loose : Loose M)
    (lasts : OutlastsToggles Γ) (rail : i = .nonCpuP ∨ i = .cpu0P → .powered .rail ∈ Γ) :
    LeadsTo R S (At cfg (powerUp cfg.map i ++ rest) M (Knows (.idle :: Γ)))
      (At cfg rest M (Knows (.idle :: .powered i :: Γ))) := by
  have places := wf_placesOk hwf
  have status (u : State) (hu : Steady cfg u) :
      readValue u .pwrgateStatus &&& partMask cfg.map i = partMask cfg.map i ↔ isPowered u i = true := by
    rw [readValue, hu.cfg]
    exact partsWord_meets_partMask places u.pwrStatus i
  refine LeadsTo.split (.powered i) (.off i) (fun u _ hk => ?decided) ?on ?off
  case decided =>
    have idle : u.pgPending = none := hk .idle List.mem_cons_self
    simp only [Fact.holds, idle]
    cases isPowered u i <;> simp
  case on =>
    refine (LeadsTo.readSkipped hS (knows_lasting cfg _) (fun u h => safe u (h.subset (by simp))) loose rfl
      fun u ops hu _ hk => ?_).conclude fun u _ hk => hk.subset (by simp)
    have found := (status u hu).2 (hk (.powered i) List.mem_cons_self).1
    simp only [condHolds, found, beq_self_eq_true, Bool.not_true]
  case off =>
    refine (LeadsTo.readTaken hS (knows_lasting cfg _) (fun u h => safe u (h.subset (by simp))) loose rfl
      fun u ops hu _ hk => ?_).trans ?_
    · have missed := mt (status u hu).1 (by simp [(hk (.off i) List.mem_cons_self).1])
      simp only [condHolds, beq_eq_false_iff_ne.2 missed, Bool.not_false]
    have started : LeadsTo R S
        (At cfg (wrOp .pwrgateToggle (.lit (toggleStart cfg.map i)) ::
          (pollOp .pwrgateStatus (partMask cfg.map i) (partMask cfg.map i) :: rest)) M (Knows (.off i :: .idle :: Γ)))
        (At cfg (pollOp .pwrgateStatus (partMask cfg.map i) (partMask cfg.map i) :: rest) M (Knows (.toggling i :: Γ))) := by
      refine LeadsTo.writeFacts hS (fun u h => safe u (h.subset (by simp))) rfl (fun m => loose m m.v _)
        (fun u hu _ hk => ⟨?_, clean_of_plain hu _ (by simp)⟩)
        (List.forall_mem_cons.2 ⟨.inr fun u hu _ hk => .inl ⟨?_, (hk (.off i) List.mem_cons_self).1⟩, fun f hf => ?_⟩)
      · obtain rfl := hu.cfg
        exact ownCheck_toggleStart (wf_map hwf) (hk .idle (by simp)) (hk (.off i) (by simp)).1
          fun who => (hk (.powered .rail) (by simp [rail who])).1
      · obtain rfl := hu.cfg
        exact storesOf_toggleStart (wf_map hwf) i
      · obtain indep | ⟨j, rfl⟩ := lasts f hf
        · exact .inl ⟨by simp [hf], indep⟩
        · refine .inr fun u hu _ hk => ?_
          have powered : isPowered u j = true := (hk (.powered j) (by simp [hf])).1
          have off : isPowered u i = false := (hk (.off i) List.mem_cons_self).1
          obtain rfl := hu.cfg
          refine ⟨powered, fun same => ?_⟩
          have pending : some i = some j := (storesOf_toggleStart (wf_map hwf) i).symm.trans same
          cases pending
          exact nomatch powered.symm.trans off
    refine started.trans ((LeadsTo.pollFact .powerGate (.powered i) hS (fun u h => safe u (h.subset (by simp))) loose rfl
      (by decide) (fun u hu hk => ?wanted) fun u x hu hk waits => ?helps).conclude fun u _ hk => ?done)
    case wanted =>
      refine (status u hu).trans ⟨fun on => ⟨on, ?_⟩, fun h => h.1⟩
      obtain ⟨-, off⟩ | ⟨idle, -⟩ := hk (.toggling i) List.mem_cons_self
      · exact nomatch on.symm.trans off
      · simp [idle]
    case helps =>
      obtain ⟨pending, off⟩ | ⟨idle, on⟩ := hk (.toggling i) List.mem_cons_self
      · refine ⟨rfl, by simp [agentEnabled, pending], ?_, ?_⟩
        · show isPowered (completeToggle x u) i = true
          rw [completeToggle_of_unpowered pending off]
          exact PerPart.get_set_self ..
        · show (completeToggle x u).pgPending ≠ some i
          rw [completeToggle_idle]
          simp
      · exact absurd ⟨on, by simp [idle]⟩ waits
    case done =>
      have on : isPowered u i = true := (hk (.powered i) List.mem_cons_self).1
      have idle : u.pgPending = none := by
        obtain ⟨-, off⟩ | ⟨idle, -⟩ := hk (.toggling i) (by simp)
        · exact nomatch on.symm.trans off
        · exact idle
      exact .cons idle (.cons ⟨on, by simp [idle]⟩ (hk.subset (by simp)))

/-- `ramRepair()` (rule R290). -/
theorem LeadsTo.repairRam (hwf : cfg.wf = true) (hS : OfHardware S) (safe : ∀ u, Knows Γ u → S u) (loose : Loose M)
    (indep : ∀ f ∈ Γ, f.indep .ramRepair = true) (rail : .powered .rail ∈ Γ) :
    LeadsTo R S (At cfg (repairRam cfg ++ rest) M (Knows Γ)) (At cfg rest M (Knows Γ)) := by
  have places := wf_placesOk hwf
  obtain ⟨inReq, -, -⟩ := repairPlaces places
  unfold Machine.repairRam
  split
  case isFalse => exact LeadsTo.of_imp fun _ h => h
  case isTrue present =>
    have request : LeadsTo R S
        (At cfg (wrOp .ramRepair (.lit (placeBit cfg.map.place.repairReq true)) ::
          (pollOp .ramRepair (placeBit cfg.map.place.repairSts true) (placeBit cfg.map.place.repairSts true) :: rest)) M
          (Knows ([] ++ Γ)))
        (At cfg (pollOp .ramRepair (placeBit cfg.map.place.repairSts true) (placeBit cfg.map.place.repairSts true) :: rest) M
          (Knows ([.requested] ++ Γ))) := by
      refine LeadsTo.exchange [] [.requested] hS safe present (fun m => loose m m.v _) indep
        (fun u hu _ _ => ⟨rfl, clean_of_plain hu _ (by simp)⟩) fun u hu _ _ => List.forall_mem_singleton.2 ?_
      obtain rfl := hu.cfg
      show (storedRepair (placeBit u.cfg.map.place.repairReq true) u).ramReq = true
      unfold storedRepair
      rw [placeBit_self inReq]
      cases requested : u.ramReq <;> simp [requested]
    refine request.trans ((LeadsTo.pollFact (r := .ramRepair) .ramRepair .repaired hS
      (fun u h => safe u (h.subset (by simp))) loose present (by decide) (fun u hu _ => ?_) fun u x hu hk waits => ?_).conclude fun u _ hk => hk.subset (by simp))
    · rw [readValue, hu.cfg]
      exact repairSts_meets places u.ramSts u.ramReq
    · have unreported : u.ramSts = false := Bool.eq_false_iff.2 waits
      have requested : u.ramReq = true := hk .requested (by simp)
      have powered : isPowered u .rail = true := (hk (.powered .rail) (by simp [rail])).1
      have pending : u.repairPending = true := by rw [hu.inv.repair, requested, unreported]; rfl
      exact ⟨present, by simp only [agentEnabled, pending, powered, Bool.and_self], rfl⟩

/-- What the power-up of a cluster makes known of its partitions (rule R291). -/
def poweredFacts : Cluster → List Fact
  | .p => [.powered .cpu0P, .powered .nonCpuP, .powered .rail]
  | .e => [.powered .cpuE, .powered .nonCpuE]

theorem powered_mem {c : Cluster} {i : Part} (hi : i ∈ clusterParts c) : .powered i ∈ poweredFacts c := by
  cases c <;> simp only [clusterParts, List.mem_cons, List.not_mem_nil, or_false] at hi <;>
    simp only [poweredFacts, List.mem_cons, Fact.powered.injEq, List.not_mem_nil, or_false] <;> tauto

/-- `powerUpCluster(c)` (rule R291). -/
theorem LeadsTo.powerUpCluster (c : Cluster) (hwf : cfg.wf = true) (hS : OfHardware S) (safe : ∀ u, Knows Γ u → S u)
    (loose : Loose M) (indep : ∀ f ∈ Γ, f.indep .pwrgateToggle = true ∧ f.indep .ramRepair = true) :
    LeadsTo R S (At cfg (powerUpCluster cfg c ++ rest) M (Knows (.idle :: Γ)))
      (At cfg rest M (Knows (.idle :: (poweredFacts c ++ Γ)))) := by
  have lasts : OutlastsToggles Γ := fun f hf => .inl (indep f hf).1
  cases c with
  | p =>
    simp only [Machine.powerUpCluster, List.append_assoc]
    refine (LeadsTo.powerUp hwf hS safe loose lasts (by simp)).trans ?_
    refine (LeadsTo.repairRam hwf hS (fun u h => safe u (h.subset (by simp))) loose ?_ (by simp)).trans ?_
    · exact List.forall_mem_cons.2 ⟨rfl, List.forall_mem_cons.2 ⟨rfl, fun f hf => (indep f hf).2⟩⟩
    refine (LeadsTo.powerUp hwf hS (fun u h => safe u (h.subset (by simp))) loose lasts.cons (by simp)).trans ?_
    exact LeadsTo.powerUp hwf hS (fun u h => safe u (h.subset (by simp))) loose lasts.cons.cons (by simp)
  | e =>
    simp only [Machine.powerUpCluster, List.append_assoc]
    refine (LeadsTo.powerUp hwf hS safe loose lasts (by simp)).trans ?_
    exact LeadsTo.powerUp hwf hS (fun u h => safe u (h.subset (by simp))) loose lasts.cons (by simp)

end

end Sys2Proof.Machine
end

section
/-! PROOFS of what the procedures of the Boot Sequencer lead to: the stalls of a run, the removal of the clamps, the holding
of the secondary cores and of core 0 (rules R249, R292 to R294). -/

namespace Sys2Proof.Machine

open Sys2Proof

/-! ### What a stall may wait for -/

theorem not_pllHolds_of_settled {u : State} {p : PllId} (h : Fact.holds u (.settled p)) : pllHolds u p = false := by
  cases on : (u.pllBase.get p).enable with
  | false => simp [pllHolds, pllSettling, on]
  | true => simp [pllHolds, pllSettling, h on]

theorem not_pllHolds_of_runs {u : State} {p : PllId} (h : Fact.holds u (.runs p)) : pllHolds u p = false :=
  not_pllHolds_of_settled (p := p) fun _ => h.2

theorem wf_bounds {cfg : Config} (h : cfg.wf = true) :
    (∀ p, cfg.pllStabUs.get p ≤ stallSpan cfg) ∧ cfg.clampSettleUs ≤ stallSpan cfg := by
  simp only [Config.wf, Config.boundsOk, Bool.and_eq_true, decide_eq_true_eq] at h
  obtain ⟨⟨⟨⟨⟨⟨⟨-, ⟨⟨sys, cpu⟩, usb⟩, clamp⟩, -⟩, -⟩, -⟩, -⟩, -⟩, -⟩ := h
  exact ⟨fun p => by cases p <;> assumption, clamp⟩

theorem wf_masks {cfg : Config} (h : cfg.wf = true) :
    cfg.masks.assert.cpu = true ∧ cfg.masks.secondary.cpu = true ∧ ∀ k, k ≠ .wd → cfg.masks.release.get k = true := by
  simp only [Config.wf, Config.masksOk, Bool.and_eq_true, List.all_eq_true, Bool.or_eq_true, beq_iff_eq] at h
  obtain ⟨⟨⟨⟨⟨⟨⟨⟨⟨⟨-, ⟨asserts, secondary⟩, release⟩, -⟩, -⟩, -⟩, -⟩, -⟩, -⟩, -⟩, -⟩, -⟩ := h
  exact ⟨asserts, secondary, fun k ne => (release k k.mem_all).resolve_left ne⟩

/-! ### The peripherals -/

theorem mem_periphs {g : Gate} : g ∈ Gate.periphs ↔ g ≠ .cpu := by cases g <;> decide

theorem cpuGateOnly_get (g : Gate) : cpuGateOnly.get g = (g == .cpu) := PerGate.get_ofFn ..

/-- The peripherals are out of reset (rule R285). -/
def periphsFree : List Fact := Gate.periphs.map .devFree

/-! ### Reset lines a write sets -/

theorem lineAsserted_storedRstSet_linesWord {u : State} (hwf : u.cfg.wf = true) (c : Cluster) (x : Lines) {k : LineKind}
    {n : Nat} (named : (x.core.get k).getLsbD n = true) (core : n < u.cfg.ncores.get c) :
    lineAsserted (storedRstSet c (linesWord u.cfg.map x) u) c k n = true := by
  simp only [lineAsserted, storedRstSet, PerCluster.get_set_self, Lines.core_or, BitVec.getLsbD_or,
    namedLines_linesWord hwf, named, core, decide_true, Bool.and_self, Bool.or_true]

theorem ofKinds_core (kinds : PerKind Bool) (cores : Word) (k : LineKind) (n : Nat) :
    ((Lines.ofKinds kinds cores).core.get k).getLsbD n = (kinds.get k && cores.getLsbD n) := by
  simp only [Lines.ofKinds, PerKind.get_ofFn]
  cases kinds.get k <;> simp

theorem one_getLsbD (n : Nat) : (1 : Word).getLsbD n = decide (n = 0) := by simp

theorem secondaryLines_bit (kinds : PerKind Bool) {count n : Nat} (hn : n < count) (pos : n ≠ 0) (word : n < 32)
    (k : LineKind) : ((secondaryLines kinds count).core.get k).getLsbD n = kinds.get k := by
  rw [secondaryLines, ofKinds_core, BitVec.getLsbD_and, BitVec.getLsbD_not, presentCores_getLsbD _ _ word, one_getLsbD]
  simp [hn, pos, word]

section
variable {cfg : Config} {R : FairRun} {S : State → Prop} {M M' : Master → Prop} {K : State → Prop} {rest : List Op}
  {Γ Γ' : List Fact} {Q : State → Prop}

/-! ### Clamps (rule R292) -/

/-- The removals of the clamps of powered partitions become pending. -/
theorem LeadsTo.removeClamps (parts : List Part) (hwf : cfg.wf = true) (hS : OfHardware S)
    (safe : ∀ u, Knows Γ u → S u) (loose : Loose M) (indep : ∀ f ∈ Γ, f.indep .removeClampingCmd = true)
    (powered : ∀ i ∈ parts, .powered i ∈ Γ) :
    LeadsTo R S (At cfg (parts.map (fun i => wrOp .removeClampingCmd (.lit (partMask cfg.map i))) ++ rest) M (Knows Γ))
      (At cfg rest M (Knows (parts.map .freeing ++ Γ))) := by
  induction parts generalizing Γ with
  | nil => exact LeadsTo.of_imp fun _ h => h
  | cons i parts ih =>
    have places := wf_placesOk hwf
    have here : LeadsTo R S
        (At cfg (wrOp .removeClampingCmd (.lit (partMask cfg.map i)) ::
          (parts.map (fun i => wrOp .removeClampingCmd (.lit (partMask cfg.map i))) ++ rest)) M (Knows ([] ++ Γ)))
        (At cfg (parts.map (fun i => wrOp .removeClampingCmd (.lit (partMask cfg.map i))) ++ rest) M
          (Knows ([.freeing i] ++ Γ))) := by
      refine LeadsTo.exchange [] [.freeing i] hS safe rfl (fun m => loose m m.v _) indep
        (fun u hu _ hk => ⟨?_, clean_of_plain hu _ (by simp)⟩) fun u hu _ hk => List.forall_mem_singleton.2 ⟨?_, ?_⟩
      · obtain rfl := hu.cfg
        have on : isPowered u i = true := (hk (.powered i) (by simp [powered])).1
        have none : unpoweredClamp u (partMask u.cfg.map i) = none := by
          rw [unpoweredClamp, List.find?_eq_none]
          intro j _ bad
          rw [Bool.and_eq_true] at bad
          obtain rfl := (namesPart_partMask places i j).1 bad.1
          simp [on] at bad
        show (unpoweredClamp u (partMask u.cfg.map i)).map _ = _
        rw [none]
        rfl
      · obtain rfl := hu.cfg
        show u.clamp.get i = false ∨ (storedClamps (partMask u.cfg.map i) u).clampPending.get i = true
        simp only [storedClamps, PerPart.get_ofFn, (namesPart_partMask places i i).2 rfl, Bool.true_and]
        cases u.clamp.get i <;> simp
      · exact (hk (.powered i) (by simp [powered])).2
    refine here.trans ((ih (fun u h => safe u (h.subset (by simp))) (List.forall_mem_cons.2 ⟨rfl, indep⟩)
      fun j hj => by simp [powered j (List.mem_cons_of_mem i hj)]).conclude fun u _ hk f hf => hk f ?_)
    simp only [List.map_cons, List.cons_append, List.mem_cons, List.mem_append] at hf ⊢
    tauto

/-- `removeIoClamps(c)` (rule R292). -/
theorem LeadsTo.removeIoClamps {c : Cluster} (hwf : cfg.wf = true) (hS : OfHardware S) (safe : ∀ u, Knows Γ u → S u)
    (loose : Loose M) (indep : ∀ f ∈ Γ, f.indep .removeClampingCmd = true ∧ f.indep .tmrPtv = true)
    (powered : ∀ i ∈ clusterParts c, .powered i ∈ Γ)
    (usable : ∀ u, Steady cfg u → Knows Γ u → periphUsable u .timer = true)
    (calm : ∀ u, Steady cfg u → Knows Γ u → ∀ p, pllHolds u p = true → cfg.pllStabUs.get p ≤ cfg.clampSettleUs →
      dividersRun u p = true) :
    LeadsTo R S (At cfg (removeIoClamps cfg c ++ rest) M (Knows Γ))
      (At cfg rest M (Knows ((clusterParts c).map .freed ++ Γ))) := by
  have before : Γ ⊆ (clusterParts c).map Fact.freeing ++ Γ := List.subset_append_right _ _
  rw [Machine.removeIoClamps, List.append_assoc]
  refine (LeadsTo.removeClamps (clusterParts c) hwf hS safe loose (fun f hf => (indep f hf).1) powered).trans ?_
  refine (LeadsTo.stall ((clusterParts c).map .awaitsClamp) ((clusterParts c).map .freed) hwf hS
    (fun u h => safe u (h.subset before)) loose ?_ ?_ (wf_bounds hwf).2 (fun u hu hk => usable u hu (hk.subset before))
    (fun u hu hk => calm u hu (hk.subset before)) (fun u hu _ => ?_) fun u _ hk expired => ?_).conclude
      fun u _ hk => hk.subset (by simp)
  · intro f hf
    obtain freeing | known := List.mem_append.1 hf
    · obtain ⟨i, -, rfl⟩ := List.mem_map.1 freeing
      rfl
    · exact (indep f known).2
  · exact List.forall_mem_map.2 fun _ _ => rfl
  · obtain rfl := hu.cfg
    have span := (wf_bounds hwf).2
    have width := wf_timerOk hwf
    rw [stallSpan] at span
    exact List.forall_mem_map.2 fun i _ => awaitsClamp_stored (wf_placesOk hwf) (by omega) (Nat.le_refl _)
  · refine List.forall_mem_map.2 fun i hi => ?_
    obtain ⟨clamp, other⟩ : Fact.holds u (.freeing i) := hk _ (by simp [hi])
    have settled : u.clampPending.get i = false :=
      (hk (.awaitsClamp i) (by simp [hi])).resolve_right fun waits => nomatch expired.symm.trans waits.1
    exact ⟨clamp.resolve_right (by simp [settled]), other⟩

/-! ### Holding the cores (rules R293, R294) -/

/-- `holdAllSecondaryCoresInReset()`, for one cluster (rule R293). -/
theorem LeadsTo.holdSecondary {c : Cluster} (hwf : cfg.wf = true) (hS : OfHardware S) (safe : ∀ u, Knows Γ u → S u)
    (loose : Loose M) (present : cfg.clusterPresent c = true) (indep : ∀ f ∈ Γ, f.indep (.rstCmplxSet c) = true) :
    LeadsTo R S (At cfg (holdSecondary cfg c ++ rest) M (Knows Γ)) (At cfg rest M (Knows (.held c :: Γ))) := by
  have core (n : Nat) (hn : n < cfg.ncores.get c) (pos : n ≠ 0) :
      ((secondaryLines cfg.masks.secondary (cfg.ncores.get c)).core.get .cpu).getLsbD n = true ∧
        n < (cfg.map.place.lines.get .cpu).width := by
    have width := (wf_coreCountOk hwf c .cpu).2
    have inside := (linesPlaces (wf_placesOk hwf)).2.1 .cpu
    exact ⟨(secondaryLines_bit _ hn pos (by omega) .cpu).trans (wf_masks hwf).2.1, by omega⟩
  unfold Machine.holdSecondary
  split
  case isTrue none =>
    refine LeadsTo.of_imp (At.mono (fun _ h => h) fun u hu hk => .cons ?_ hk)
    show secondaryHeld u c = true
    rw [secondaryHeld, List.all_eq_true, hu.cfg]
    intro n hn
    refine Bool.or_eq_true_iff.2 (.inl (beq_iff_eq.2 (by_contra fun pos => ?_)))
    obtain ⟨named, width⟩ := core n (List.mem_range.1 hn) pos
    rw [← linesWord_core (wf_placesOk hwf) _ width, ← secondaryMask, none] at named
    simp at named
  case isFalse =>
    refine LeadsTo.exchange [] [.held c] hS safe present (fun m => loose m m.v _) indep
      (fun u hu _ _ => ⟨rfl, clean_of_plain hu _ (by simp)⟩) fun u hu _ _ => List.forall_mem_singleton.2 ?_
    obtain rfl := hu.cfg
    show secondaryHeld (storedRstSet c (secondaryMask u.cfg c) u) c = true
    rw [secondaryHeld, List.all_eq_true]
    intro n hn
    refine Bool.or_eq_true_iff.2 ((Nat.eq_zero_or_pos n).imp beq_iff_eq.2 fun pos => ?_)
    have count := List.mem_range.1 hn
    exact lineAsserted_storedRstSet_linesWord hwf c _ (core n count (Nat.pos_iff_ne_zero.1 pos)).1 count

theorem wf_core0 (hwf : cfg.wf = true) (c : Cluster) : 0 < cfg.ncores.get c := (wf_coreCountOk hwf c .cpu).1

/-- The commands of `assertCore0AndNonCpuReset()` for active cluster `c`; the peripherals stay out of reset (rule R294). -/
theorem LeadsTo.assertCore0 {c : Cluster} (hwf : cfg.wf = true) (hS : OfHardware S)
    (safe : ∀ u, Knows (periphsFree ++ Γ) u → S u) (loose : Loose M) (present : cfg.clusterPresent c = true)
    (indep : ∀ f ∈ Γ, f.indep (.rstCmplxSet c) = true ∧ f.indep .rstDevSet = true) :
    LeadsTo R S (At cfg (assertCore0 cfg c ++ rest) M (Knows (periphsFree ++ Γ)))
      (At cfg rest M (Knows (.devHeld .cpu :: periphsFree ++ .asserted c :: Γ))) := by
  have places := wf_placesOk hwf
  have named (w : State) (hw : w.cfg = cfg) (g : Gate) : (cpuMask cfg.map).getLsbD (w.cfg.map.gate.get g) = (g == .cpu) := by
    rw [hw, cpuMask, gatesWord_at places, cpuGateOnly_get]
  have lines : LeadsTo R S (At cfg (Machine.assertCore0 cfg c ++ rest) M (Knows ([] ++ (periphsFree ++ Γ))))
      (At cfg ((Machine.assertCore0 cfg c).tail ++ rest) M (Knows ([.asserted c] ++ (periphsFree ++ Γ)))) := by
    refine LeadsTo.exchange [] [.asserted c] hS safe present (fun m => loose m m.v _)
      (List.forall_mem_append.2 ⟨List.forall_mem_map.2 fun _ _ => rfl, fun f hf => (indep f hf).1⟩)
      (fun u hu _ _ => ⟨rfl, clean_of_plain hu _ (by simp)⟩) fun u hu _ _ => List.forall_mem_singleton.2 fun k hk => ?_
    obtain rfl := hu.cfg
    refine lineAsserted_storedRstSet_linesWord hwf c _ ?_ (wf_core0 hwf c)
    rw [ofKinds_core]
    exact Bool.and_eq_true_iff.2 ⟨hk.elim (fun own => own ▸ (wf_masks hwf).1) id, rfl⟩
  have complex : LeadsTo R S
      (At cfg ((Machine.assertCore0 cfg c).tail ++ rest) M (Knows (periphsFree ++ .asserted c :: Γ)))
      (At cfg ((Machine.assertCore0 cfg c).tail.tail ++ rest) M
        (Knows (.devHeld .cpu :: periphsFree ++ .asserted c :: Γ))) := by
    refine LeadsTo.exchange periphsFree (.devHeld .cpu :: periphsFree) hS (fun u h => safe u (h.subset (by grind))) rfl
      (fun m => loose m m.v _) (List.forall_mem_cons.2 ⟨rfl, fun f hf => (indep f hf).2⟩)
      (fun u hu _ _ => ⟨rfl, clean_of_plain hu _ (by simp)⟩)
      fun u hu _ hk => .cons ?_ (List.forall_mem_map.2 fun g hg => ?_)
    · exact (storesOf_rstDevSet_get _ u .cpu).trans (Bool.or_eq_true_iff.2 (.inr (named u hu.cfg .cpu)))
    · have free : u.rstDev.get g = false := hk (.devFree g) (List.mem_append_left _ (List.mem_map_of_mem hg))
      refine (storesOf_rstDevSet_get _ u g).trans (Bool.or_eq_false_iff.2 ⟨free, (named u hu.cfg g).trans ?_⟩)
      exact beq_eq_false_iff_ne.2 (mem_periphs.1 hg)
  refine lines.trans ((complex.weaken fun u _ hk => hk.subset (by grind)).trans ?_)
  refine (LeadsTo.pollKnown (r := .rstCmplxSet c) hS (fun u h => safe u (h.subset (by grind))) loose present
    fun u hu hk => ?_).trans (LeadsTo.pollKnown hS (fun u h => safe u (h.subset (by grind))) loose rfl fun u hu hk => ?_)
  · obtain rfl := hu.cfg
    have held : Fact.holds u (.asserted c) := hk _ (by simp)
    refine linesWord_meets places (fun h => nomatch h) fun k n line => ?_
    rw [ofKinds_core, Bool.and_eq_true, one_getLsbD, decide_eq_true_eq] at line
    obtain ⟨mask, rfl⟩ := line
    exact held k (.inr mask)
  · obtain rfl := hu.cfg
    have held : u.rstDev.get .cpu = true := hk (.devHeld .cpu) (by simp)
    refine (gatesWord_meets places u.rstDev cpuGateOnly).2 fun g only => ?_
    have cpu : g = .cpu := by simpa [cpuGateOnly_get] using only
    exact cpu ▸ held

end

end Sys2Proof.Machine
end

section
/-! PROOFS of what the procedures of the Boot Sequencer lead to: the clock gates, and the steps of the release before its
last write (rules R285, R286, R295). -/

namespace Sys2Proof.Machine

open Sys2Proof

/-! ### Words of gates -/

theorem gatesOfWord_get (m : RegMap) (d : Word) (g : Gate) : (gatesOfWord m d).get g = d.getLsbD (m.gate.get g) :=
  PerGate.get_ofFn ..

theorem gatesOfWord_or {m : RegMap} (h : m.placesOk = true) (x y : PerGate Bool) (g : Gate) :
    (gatesOfWord m (gatesWord m x ||| gatesWord m y)).get g = (x.get g || y.get g) := by
  rw [gatesOfWord_get, BitVec.getLsbD_or, gatesWord_at h, gatesWord_at h]

theorem gatesOfWord_clear {m : RegMap} (h : m.placesOk = true) (x y : PerGate Bool) (g : Gate) :
    (gatesOfWord m (gatesWord m x &&& ~~~gatesWord m y)).get g = (x.get g && !y.get g) := by
  rw [gatesOfWord_get, BitVec.getLsbD_and, BitVec.getLsbD_not, gatesWord_at h, gatesWord_at h]
  simp [gate_place h g]

theorem periphGates_get (g : Gate) : periphGates.get g = (g != .cpu) := PerGate.get_ofFn ..

/-- With no clock source touched, a write of the gates keeps the clocks clean if the CPU gate stays closed or its clock is
clean (rule R182). -/
theorem clean_of_gates {u : State} (hu : u.Inv) (d : Word)
    (h : (gatesOfWord u.cfg.map d).get .cpu = true → cclkOk u = true) : clockFault (storesOf d u .clkEnb) = none :=
  clockFault_eq_none.2 ⟨(clockFault_eq_none.1 hu.clocks).1, h⟩

/-! ### Lines a write clears -/

theorem releasedLines_linesWord {u : State} (hwf : u.cfg.wf = true) (c : Cluster) (x : Lines) (k : LineKind) (n : Nat) :
    ((releasedLines u c (linesWord u.cfg.map x)).core.get k).getLsbD n =
      ((x.core.get k).getLsbD n && decide (n < u.cfg.ncores.get c) && lineAsserted u c k n) := by
  rw [releasedLines, Lines.core_and, BitVec.getLsbD_and, namedLines_linesWord hwf]
  rfl

theorem releasedLines_linesWord_nonCpu {u : State} (hwf : u.cfg.wf = true) (c : Cluster) (x : Lines) :
    (releasedLines u c (linesWord u.cfg.map x)).nonCpu = (x.nonCpu && nonCpuAsserted u c) := by
  rw [releasedLines, Lines.nonCpu_and, namedLines_linesWord_nonCpu hwf]
  rfl

/-- A clear of the non-CPU line names no core. -/
theorem releasedLines_nonCpuMask {u : State} (hwf : u.cfg.wf = true) (c : Cluster) :
    releasedLines u c (nonCpuMask u.cfg.map) = { Lines.none with nonCpu := nonCpuAsserted u c } := by
  refine Lines.ext_get (fun k => BitVec.eq_of_getLsbD_eq fun n _ => ?_) ?_
  · rw [nonCpuMask, releasedLines_linesWord hwf, nonCpuLine, Lines.core_ofCores]
    simp [Lines.none]
  · rw [nonCpuMask, releasedLines_linesWord_nonCpu hwf, nonCpuLine, Lines.nonCpu_ofCores]
    rfl

theorem meets_of_no_core {x y : Lines} (hx : ∀ k, x.core.get k = 0) (hy : y.nonCpu = false) : x.meets y = false :=
  Lines.meets_eq_false.2 ⟨fun k => by rw [hx k]; exact BitVec.zero_and, by rw [hy]; exact Bool.and_false _⟩

/-- The clear of the non-CPU line passes its checks with the partition powered, or as the cross-cluster clear of rule
R295 (rule R221). -/
theorem ownCheck_nonCpuMask {u : State} (hwf : u.cfg.wf = true) {c : Cluster}
    (allowed : isPowered u (nonCpuPart c) = true ∨
      (u.cfg.dualCluster = true ∧ u.cfg.crossClusterClear = true ∧ c ≠ u.activeCluster)) :
    ownCheck (nonCpuMask u.cfg.map) u (.rstCmplxClr c) = none := by
  refine ownCheck_rstCmplxClr.2 ?_
  rw [releasedLines_nonCpuMask hwf]
  have noCore (k : LineKind) : ({ Lines.none with nonCpu := nonCpuAsserted u c } : Lines).core.get k = 0 :=
    Lines.core_none k
  refine ⟨meets_of_no_core noCore rfl, ?_⟩
  have first : (nonCpuAsserted u c && !isPowered u (nonCpuPart c) &&
      !crossClear u c { Lines.none with nonCpu := nonCpuAsserted u c }) = false := by
    obtain on | ⟨dual, cross, other⟩ := allowed
    · rw [on]; simp
    · cases asserted : nonCpuAsserted u c with
      | false => rfl
      | true =>
        have exempt : crossClear u c { Lines.none with nonCpu := true } = true := by
          simp only [crossClear, dual, cross, beq_eq_false_iff_ne.2 other, Bool.not_false, Bool.and_self, Bool.true_and]
          rfl
        rw [exempt]; simp
  rw [releaseFault, if_neg (by rw [first]; simp), meets_of_no_core noCore rfl, meets_of_no_core noCore rfl]
  rfl

theorem lineAsserted_clearNonCpu {u : State} (hwf : u.cfg.wf = true) (c d : Cluster) (k : LineKind) (n : Nat) :
    lineAsserted (storedRstClr d (nonCpuMask u.cfg.map) u) c k n = lineAsserted u c k n := by
  rw [lineAsserted_storedRstClr, releasedLines_nonCpuMask hwf]
  simp [Lines.none, -BitVec.ofNat_eq_ofNat]

theorem nonCpuAsserted_clearNonCpu {u : State} (hwf : u.cfg.wf = true) (c : Cluster) :
    nonCpuAsserted (storedRstClr c (nonCpuMask u.cfg.map) u) c = false := by
  show ((u.rstCmplx.set c _).get c).nonCpu = false
  rw [PerCluster.get_set_self, Lines.nonCpu_without, releasedLines_nonCpuMask hwf]
  exact Bool.and_not_self _

section
variable {cfg : Config} {R : FairRun} {S : State → Prop} {M M' : Master → Prop} {K : State → Prop} {rest : List Op}
  {Γ Γ' : List Fact} {Q : State → Prop}

/-! ### Clock gates (rules R285, R286) -/

/-- A read of `CLK_ENB` and a write made from it: `G` is what it makes of each gate (rule R111). -/
theorem LeadsTo.updateGates {e : Expr} (G : Bool → Gate → Bool) (old new : List Fact) (hS : OfHardware S)
    (safe : ∀ u, Knows (old ++ Γ) u → S u) (loose : Loose M) (indep : ∀ f ∈ Γ, f.indep .clkEnb = true)
    (value : ∀ m x, m.v = gatesWord cfg.map x → ∀ g,
      (gatesOfWord cfg.map (exprValue cfg m e)).get g = G (x.get g) g)
    (check : ∀ u d, Steady cfg u → Knows (old ++ Γ) u →
      (∀ g, (gatesOfWord cfg.map d).get g = G (u.clkEnb.get g) g) →
      ownCheck d u .clkEnb = none ∧ clockFault (storesOf d u .clkEnb) = none ∧ Knows new (storesOf d u .clkEnb)) :
    LeadsTo R S (At cfg (rdOp .clkEnb :: wrOp .clkEnb e :: rest) M (Knows (old ++ Γ)))
      (At cfg rest M (Knows (new ++ Γ))) := by
  refine LeadsTo.choose .gates (fun u _ _ => ⟨u.clkEnb, rfl⟩) fun x => ?_
  have gates (u : State) (h : Knows (.gates x :: (old ++ Γ)) u) : u.clkEnb = x := h _ List.mem_cons_self
  refine (LeadsTo.read (M' := fun m => M m ∧ m.v = gatesWord cfg.map x) hS (knows_lasting cfg _)
    (fun u h => safe u (h.subset (by simp))) rfl fun u hu hm hk => ⟨loose _ _ _ hm, ?_⟩).trans ?_
  · show gatesWord u.cfg.map u.clkEnb = _
    rw [hu.cfg, gates u hk]
  have outcome (u : State) (hu : Steady cfg u) (hm : M u.master ∧ u.master.v = gatesWord cfg.map x)
      (hk : Knows ((.gates x :: old) ++ Γ) u) := check u (exprValue cfg u.master e) hu (hk.subset (by simp))
    (by rw [gates u hk]; exact value u.master x hm.2)
  exact LeadsTo.exchange (.gates x :: old) new hS (fun u h => safe u (h.subset (by simp))) rfl
    (fun m hm => loose m m.v _ hm.1) indep
    (fun u hu hm hk => ⟨(outcome u hu hm hk).1, (outcome u hu hm hk).2.1⟩) fun u hu hm hk => (outcome u hu hm hk).2.2

/-- The peripherals' clocks run (rule R285). -/
def periphsClocked : List Fact := Gate.periphs.map (.clk · true)

theorem not_open_badly {u : State} {d : Word} (h : (gatesOfWord u.cfg.map d).get .cpu = false) :
    ownCheck d u .clkEnb = none :=
  if_neg (by rw [gateOpensBadly, show (gatesOfWord u.cfg.map d).cpu = false from h]; simp)

/-- A fact about the gates after a write of them. -/
theorem knows_gates {u : State} {d : Word} {b : Bool} (hcpu : (gatesOfWord u.cfg.map d).get .cpu = b)
    (hp : ∀ g ∈ Gate.periphs, (gatesOfWord u.cfg.map d).get g = true) :
    Knows (.clk .cpu b :: periphsClocked) (storesOf d u .clkEnb) :=
  .cons hcpu (List.forall_mem_map.2 hp)

/-- `enablePeripheralClockGates()` (rule R285). -/
theorem LeadsTo.enablePeripheralClockGates (hwf : cfg.wf = true) (hS : OfHardware S)
    (safe : ∀ u, Knows [.clk .cpu false] u → S u) (loose : Loose M)
    (indep : ∀ f ∈ Γ, f.indep .clkEnb = true ∧ f.indep .rstDevClr = true) :
    LeadsTo R S (At cfg (enablePeripheralClockGates cfg.map ++ rest) M (Knows (.clk .cpu false :: Γ)))
      (At cfg rest M (Knows (.clk .cpu false :: periphsClocked ++ (periphsFree ++ Γ)))) := by
  have places := wf_placesOk hwf
  have notCpu (g : Gate) (hg : g ∈ Gate.periphs) : (g != .cpu) = true := bne_iff_ne.2 (mem_periphs.1 hg)
  have release : LeadsTo R S
      (At cfg (Machine.enablePeripheralClockGates cfg.map ++ rest) M (Knows ([] ++ .clk .cpu false :: Γ)))
      (At cfg ((Machine.enablePeripheralClockGates cfg.map).tail ++ rest) M (Knows (periphsFree ++ .clk .cpu false :: Γ))) := by
    refine LeadsTo.exchange [] periphsFree hS (fun u h => safe u (h.subset (by simp))) rfl (fun m => loose m m.v _)
      (List.forall_mem_cons.2 ⟨rfl, fun f hf => (indep f hf).2⟩)
      (fun u hu _ _ => ⟨if_neg ?_, clean_of_plain hu _ (by simp)⟩) fun u hu _ _ => List.forall_mem_map.2 fun g hg => ?_
    · obtain rfl := hu.cfg
      have spared : (gatesOfWord u.cfg.map (peripheralMask u.cfg.map)).cpu = false :=
        (gatesOfWord_get _ _ .cpu).trans (gatesWord_at places _ _)
      show ¬complexUnpowered u (peripheralMask u.cfg.map) = true
      rw [complexUnpowered, spared]
      simp
    · obtain rfl := hu.cfg
      refine (storesOf_rstDevClr_get _ u g).trans (Bool.and_eq_false_imp.2 fun _ => ?_)
      show (!(gatesWord u.cfg.map periphGates).getLsbD (u.cfg.map.gate.get g)) = false
      rw [gatesWord_at places, periphGates_get, notCpu g hg]
      rfl
  have polled : LeadsTo R S
      (At cfg ((Machine.enablePeripheralClockGates cfg.map).tail ++ rest) M (Knows (periphsFree ++ .clk .cpu false :: Γ)))
      (At cfg (setbOps .clkEnb (peripheralMask cfg.map) ++ rest) M (Knows (periphsFree ++ .clk .cpu false :: Γ))) := by
    refine LeadsTo.pollKnown hS (fun u h => safe u (h.subset (by simp))) loose rfl fun u hu hk => ?_
    obtain rfl := hu.cfg
    refine (gatesWord_misses places u.rstDev periphGates).2 fun g named => ?_
    have periph : g ∈ Gate.periphs := mem_periphs.2 (bne_iff_ne.1 ((periphGates_get g).symm.trans named))
    exact hk (.devFree g) (List.mem_append_left _ (List.mem_map_of_mem periph))
  refine release.trans (polled.trans (LeadsTo.weaken (Γ' := [.clk .cpu false] ++ (periphsFree ++ Γ)) ?_ fun u _ hk =>
    hk.subset fun f hf => by simp only [List.mem_append, List.mem_cons, List.not_mem_nil, or_false] at hf ⊢; tauto))
  refine LeadsTo.updateGates (fun b g => b || g != .cpu) [.clk .cpu false] (.clk .cpu false :: periphsClocked) hS
    (fun u h => safe u (h.subset (by simp))) loose ?_ (fun m x hv g => ?_) fun u d hu hk hd => ?_
  · exact List.forall_mem_append.2 ⟨List.forall_mem_map.2 fun _ _ => rfl, fun f hf => (indep f hf).1⟩
  · show (gatesOfWord cfg.map (m.v ||| peripheralMask cfg.map)).get g = _
    rw [hv, peripheralMask, gatesOfWord_or places, periphGates_get]
  · obtain rfl := hu.cfg
    have closed : u.clkEnb.get .cpu = false := hk (.clk .cpu false) (by simp)
    have kept : (gatesOfWord u.cfg.map d).get .cpu = false := by rw [hd, closed]; rfl
    exact ⟨not_open_badly kept, clean_of_gates hu.inv d (by simp [kept]),
      knows_gates kept fun g hg => by rw [hd, notCpu g hg, Bool.or_true]⟩

/-- `disableCpuClockGate()` (rule R286). -/
theorem LeadsTo.disableCpuClockGate (hwf : cfg.wf = true) (hS : OfHardware S)
    (safe : ∀ u, Knows [.clk .cpu false] u → S u) (loose : Loose M) (indep : ∀ f ∈ Γ, f.indep .clkEnb = true) :
    LeadsTo R S (At cfg (disableCpuClockGate cfg.map ++ rest) M (Knows (.clk .cpu false :: periphsClocked ++ Γ)))
      (At cfg rest M (Knows (.clk .cpu false :: periphsClocked ++ Γ))) := by
  refine LeadsTo.updateGates (fun b g => b && !(g == .cpu)) (.clk .cpu false :: periphsClocked) _ hS
    (fun u h => safe u (h.subset (by simp))) loose indep (fun m x hv g => ?_) fun u d hu hk hd => ?_
  · show (gatesOfWord cfg.map (m.v &&& ~~~cpuMask cfg.map)).get g = _
    rw [hv, cpuMask, gatesOfWord_clear (wf_placesOk hwf), cpuGateOnly_get]
  · obtain rfl := hu.cfg
    have kept : (gatesOfWord u.cfg.map d).get .cpu = false := by rw [hd]; simp
    refine ⟨not_open_badly kept, clean_of_gates hu.inv d (by simp [kept]), knows_gates kept fun g hg => ?_⟩
    have on : u.clkEnb.get g = true :=
      hk (.clk g true) (List.mem_append_left _ (List.mem_cons_of_mem _ (List.mem_map_of_mem hg)))
    rw [hd, on, beq_eq_false_iff_ne.2 (mem_periphs.1 hg)]
    rfl

/-- `enableCpuClockGate()` with the active cluster's core 0 held and powered (rules R180, R286). -/
theorem LeadsTo.enableCpuClockGate {c : Cluster} (hwf : cfg.wf = true) (hS : OfHardware S) (safe : ∀ u, Knows Γ u → S u)
    (loose : Loose M) (indep : ∀ f ∈ Γ, f.indep .clkEnb = true) (active : .active c ∈ Γ)
    (powered : .powered (cpuPart c) ∈ Γ) (asserted : .asserted c ∈ Γ)
    (clean : ∀ u, Steady cfg u → Knows Γ u → cclkOk u = true) :
    LeadsTo R S (At cfg (enableCpuClockGate cfg.map ++ rest) M (Knows (.clk .cpu false :: periphsClocked ++ Γ)))
      (At cfg rest M (Knows (.clk .cpu true :: periphsClocked ++ Γ))) := by
  refine LeadsTo.updateGates (fun b g => b || g == .cpu) (.clk .cpu false :: periphsClocked) _ hS
    (fun u h => safe u (h.subset (List.subset_append_right _ _))) loose indep (fun m x hv g => ?_) fun u d hu hk hd => ?_
  · show (gatesOfWord cfg.map (m.v ||| cpuMask cfg.map)).get g = _
    rw [hv, cpuMask, gatesOfWord_or (wf_placesOk hwf), cpuGateOnly_get]
  · have known : Knows Γ u := hk.subset (List.subset_append_right _ _)
    have sound := clean u hu known
    obtain rfl := hu.cfg
    have at_c : u.activeCluster = c := known _ active
    have on : isPowered u (cpuPart c) = true := (known _ powered).1
    have line : lineAsserted u c .cpu 0 = true := known _ asserted .cpu (.inl rfl)
    refine ⟨if_neg ?_, clean_of_gates hu.inv d fun _ => sound, knows_gates (by rw [hd]; simp) fun g hg => ?_⟩
    · rw [gateOpensBadly, at_c, on, line]
      simp
    · have clocked : u.clkEnb.get g = true :=
        hk (.clk g true) (List.mem_append_left _ (List.mem_cons_of_mem _ (List.mem_map_of_mem hg)))
      rw [hd, clocked]
      rfl

end

end Sys2Proof.Machine
end

section
/-! PROOFS of what the procedures of the Boot Sequencer lead to: the release of core 0 (rules R221, R295). -/

namespace Sys2Proof.Machine

open Sys2Proof

/-! ### The last write of the release -/

theorem core0Release_bit (cfg : Config) (k : LineKind) (n : Nat) :
    ((Lines.ofKinds cfg.masks.release 1).core.get k).getLsbD n = (cfg.masks.release.get k && decide (n = 0)) := by
  rw [ofKinds_core, one_getLsbD]

/-- The last write of the release names no secondary core and no non-CPU line, and passes its checks in the order of rule
R221. -/
theorem ownCheck_core0Release {u : State} (hwf : u.cfg.wf = true) {c : Cluster} (powered : isPowered u (cpuPart c) = true)
    (free : nonCpuAsserted u c = false) (out : u.nonCpuInReset.get c = false) (clock : cpuGateOpen u = true)
    (mirrored : u.cfg.dualCluster = true → u.softRst.p = u.softRst.e) :
    ownCheck (core0ReleaseMask u.cfg) u (.rstCmplxClr c) = none := by
  have named (k : LineKind) (n : Nat) :
      ((releasedLines u c (core0ReleaseMask u.cfg)).core.get k).getLsbD n = true → n = 0 := by
    rw [core0ReleaseMask, releasedLines_linesWord hwf, core0Release_bit]
    simp only [Bool.and_eq_true, decide_eq_true_eq]
    exact fun h => h.1.1.2
  have noNonCpu : (releasedLines u c (core0ReleaseMask u.cfg)).nonCpu = false := by
    rw [core0ReleaseMask, releasedLines_linesWord_nonCpu hwf]
    rfl
  refine ownCheck_rstCmplxClr.2 ⟨Lines.meets_eq_false.2 ⟨fun k => BitVec.eq_of_getLsbD_eq fun n hn => ?_, ?_⟩, ?_⟩
  · rw [BitVec.getLsbD_and, otherCoresLines, Lines.core_ofCores, BitVec.getLsbD_not, one_getLsbD]
    cases bit : ((releasedLines u c (core0ReleaseMask u.cfg)).core.get k).getLsbD n with
    | false => simp
    | true => simp [named k n bit]
  · rw [noNonCpu]
    rfl
  · have same : (u.cfg.dualCluster && u.softRst.p != u.softRst.e) = false := by
      cases dual : u.cfg.dualCluster with
      | false => rfl
      | true => simp [mirrored dual]
    simp only [releaseFault, noNonCpu, powered, free, out, clock, same, Bool.false_and, Bool.not_true, Bool.and_false,
      Bool.or_self, Bool.false_eq_true, if_false, ite_self]

/-- What the last write of the release leaves of core 0's lines. -/
theorem core0_released {u : State} (hwf : u.cfg.wf = true) {c : Cluster} (held : Fact.holds u (.asserted c)) :
    Knows [.released c, .watchdog c] (storesOf (core0ReleaseMask u.cfg) u (.rstCmplxClr c)) := by
  have after (k : LineKind) : lineAsserted (storedRstClr c (core0ReleaseMask u.cfg) u) c k 0 =
      (lineAsserted u c k 0 && !u.cfg.masks.release.get k) := by
    rw [lineAsserted_storedRstClr, core0ReleaseMask, releasedLines_linesWord hwf, core0Release_bit]
    have core := wf_core0 hwf c
    cases lineAsserted u c k 0 <;> simp [core]
  refine .cons (fun k ne => ?_) (.cons (fun mask => ?_) fun f hf => nomatch hf)
  · exact (after k).trans (by rw [(wf_masks hwf).2.2 k ne]; simp)
  · exact (after .wd).trans (by rw [held .wd (.inr mask), Bool.true_and]; rfl)

section
variable {cfg : Config} {R : FairRun} {S : State → Prop} {M M' : Master → Prop} {K : State → Prop} {rest : List Op}
  {Γ Γ' : List Fact} {Q : State → Prop}

/-! ### The steps before it -/

theorem other_ne (c : Cluster) : c.other ≠ c := by cases c <;> decide

theorem present_other {c : Cluster} (dual : cfg.dualCluster = true) (d : Cluster) (_ : d = c ∨ d = c.other) :
    cfg.clusterPresent d = true := by
  cases d with
  | p => rfl
  | e => exact dual

/-- One soft-reset control register is copied to the other (rule R295, step 3). -/
theorem LeadsTo.copySoftReset {a b : Cluster} (ne : b ≠ a) (dual : cfg.dualCluster = true) (hS : OfHardware S)
    (safe : ∀ u, Knows Γ u → S u) (loose : Loose M) (indep : ∀ f ∈ Γ, ∀ d, f.indep (.cpuSoftrstCtrl d) = true) :
    LeadsTo R S (At cfg ([rdOp (.cpuSoftrstCtrl a), wrOp (.cpuSoftrstCtrl b) .scratch] ++ rest) M (Knows Γ))
      (At cfg rest M (Knows (.mirrored :: Γ))) := by
  have present (d : Cluster) : (Reg.cpuSoftrstCtrl d).present cfg = true := by
    cases d with
    | p => rfl
    | e => exact dual
  refine LeadsTo.choose (.soft a) (fun u _ _ => ⟨u.softRst.get a, rfl⟩) fun w => ?_
  refine (LeadsTo.read (M' := fun m => M m ∧ m.v = w) hS (knows_lasting cfg _) (fun u h => safe u (h.subset (by grind)))
    (present a) fun u hu hm hk => ⟨loose _ _ _ hm, hk (.soft a w) List.mem_cons_self⟩).trans ?_
  refine LeadsTo.exchange [.soft a w] [.mirrored] hS (fun u h => safe u (h.subset (by grind))) (present b)
    (fun m hm => loose m m.v _ hm.1) (fun f hf => indep f hf b)
    (fun u hu _ _ => ⟨rfl, clean_of_plain hu _ (by simp)⟩) fun u hu hm hk => List.forall_mem_singleton.2 ?_
  have source : u.softRst.get a = w := hk (.soft a w) List.mem_cons_self
  show (u.softRst.set b u.master.v).get .p = (u.softRst.set b u.master.v).get .e
  rw [hm.2, PerCluster.get_set, PerCluster.get_set]
  cases a <;> cases b
  · exact absurd rfl ne
  · exact source
  · exact source.symm
  · exact absurd rfl ne

/-- What is known of the soft-reset control registers after step 3 of the release. -/
def mirrorFacts (cfg : Config) : List Fact := if cfg.dualCluster then [.mirrored] else []

theorem LeadsTo.mirrorSoftReset {c : Cluster} (hS : OfHardware S) (safe : ∀ u, Knows Γ u → S u) (loose : Loose M)
    (indep : ∀ f ∈ Γ, ∀ d, f.indep (.cpuSoftrstCtrl d) = true) :
    LeadsTo R S (At cfg (mirrorSoftReset cfg c ++ rest) M (Knows Γ)) (At cfg rest M (Knows (mirrorFacts cfg ++ Γ))) := by
  unfold Machine.mirrorSoftReset mirrorFacts
  split
  next dual =>
    split
    · exact LeadsTo.copySoftReset (other_ne c) dual hS safe loose indep
    · exact LeadsTo.copySoftReset (other_ne c).symm dual hS safe loose indep
  next => exact LeadsTo.of_imp fun _ h => h

/-- The cross-cluster clear (rule R295, step 4, and its exemption in rule R221). -/
theorem LeadsTo.clearOtherNonCpu {c : Cluster} (hwf : cfg.wf = true) (hS : OfHardware S) (safe : ∀ u, Knows Γ u → S u)
    (loose : Loose M) (active : .active c ∈ Γ) (indep : ∀ f ∈ Γ, f.indep (.rstCmplxClr c.other) = true) :
    LeadsTo R S (At cfg (clearOtherNonCpu cfg c ++ rest) M (Knows Γ)) (At cfg rest M (Knows Γ)) := by
  unfold Machine.clearOtherNonCpu
  split
  next both =>
    rw [Bool.and_eq_true] at both
    obtain ⟨dual, cross⟩ := both
    refine LeadsTo.exchange [] [] hS safe (present_other (c := c) dual _ (.inr rfl)) (fun m => loose m m.v _) indep
      (fun u hu _ hk => ⟨?_, clean_of_plain hu _ (by simp)⟩) fun _ _ _ _ f hf => nomatch hf
    obtain rfl := hu.cfg
    have here : u.activeCluster = c := hk _ active
    exact ownCheck_nonCpuMask hwf (.inr ⟨dual, cross, by rw [here]; exact other_ne c⟩)
  next => exact LeadsTo.of_imp fun _ h => h

/-- What survives the steps of the release of core 0 of cluster `c`. -/
def Fact.outlastsRelease (c : Cluster) (f : Fact) : Bool :=
  f.indep .rstDevClr && f.indep (.rstCmplxClr c) && f.indep (.rstCmplxClr c.other) && f.indep (.cpuSoftrstCtrl .p) &&
    f.indep (.cpuSoftrstCtrl .e)

/-- What the steps of the release before its last write make known. -/
def releaseFacts (cfg : Config) (c : Cluster) : List Fact :=
  mirrorFacts cfg ++ [.nonCpuOut c, .nonCpuFree c, .asserted c, .devFree .cpu]

/-- The steps of the release before its last write (rule R295). -/
theorem LeadsTo.releaseSteps {c : Cluster} (hwf : cfg.wf = true) (hS : OfHardware S)
    (safe : ∀ u, Knows (.asserted c :: Γ) u → S u) (loose : Loose M) (present : cfg.clusterPresent c = true)
    (lasts : ∀ f ∈ Γ, f.outlastsRelease c = true) (active : .active c ∈ Γ) (powered : .powered (nonCpuPart c) ∈ Γ) :
    LeadsTo R S (At cfg (releaseCore0 cfg c ++ rest) M (Knows (.asserted c :: Γ)))
      (At cfg (wrOp (.rstCmplxClr c) (.lit (core0ReleaseMask cfg)) :: rest) M (Knows (releaseFacts cfg c ++ Γ))) := by
  have places := wf_placesOk hwf
  have indep (f : Fact) (hf : f ∈ Γ) : f.indep .rstDevClr = true ∧ f.indep (.rstCmplxClr c) = true ∧
      f.indep (.rstCmplxClr c.other) = true ∧ ∀ d, f.indep (.cpuSoftrstCtrl d) = true := by
    have all := lasts f hf
    simp only [Fact.outlastsRelease, Bool.and_eq_true] at all
    obtain ⟨⟨⟨⟨dev, here⟩, other⟩, p⟩, e⟩ := all
    exact ⟨dev, here, other, fun d => by cases d <;> assumption⟩
  have shape : releaseCore0 cfg c ++ rest =
      wrOp .rstDevClr (.lit (cpuMask cfg.map)) :: wrOp (.rstCmplxClr c) (.lit (nonCpuMask cfg.map)) ::
        pollOp (.rstCmplxStatus c) (placeBit cfg.map.place.nonCpuInReset true) 0 ::
          (Machine.mirrorSoftReset cfg c ++ (Machine.clearOtherNonCpu cfg c ++
            wrOp (.rstCmplxClr c) (.lit (core0ReleaseMask cfg)) :: rest)) := by
    simp [releaseCore0]
  rw [shape]
  have complex (after : List Op) : LeadsTo R S
      (At cfg (wrOp .rstDevClr (.lit (cpuMask cfg.map)) :: after) M (Knows ([] ++ .asserted c :: Γ)))
      (At cfg after M (Knows ([.devFree .cpu] ++ .asserted c :: Γ))) := by
    refine LeadsTo.exchange [] [.devFree .cpu] hS safe rfl (fun m => loose m m.v _)
      (List.forall_mem_cons.2 ⟨rfl, fun f hf => (indep f hf).1⟩)
      (fun u hu _ hk => ⟨if_neg ?_, clean_of_plain hu _ (by simp)⟩) fun u hu _ _ => List.forall_mem_singleton.2 ?_
    · have at_c : u.activeCluster = c := hk (.active c) (by simp [active])
      have on : isPowered u (nonCpuPart c) = true := (hk (.powered (nonCpuPart c)) (by simp [powered])).1
      rw [complexUnpowered, at_c, on]
      simp
    · obtain rfl := hu.cfg
      refine (storesOf_rstDevClr_get _ u .cpu).trans (Bool.and_eq_false_imp.2 fun _ => ?_)
      show (!(gatesWord u.cfg.map cpuGateOnly).getLsbD (u.cfg.map.gate.get .cpu)) = false
      rw [gatesWord_at places]
      rfl
  have nonCpu (after : List Op) : LeadsTo R S
      (At cfg (wrOp (.rstCmplxClr c) (.lit (nonCpuMask cfg.map)) :: after) M (Knows ([.asserted c] ++ .devFree .cpu :: Γ)))
      (At cfg after M (Knows ([.nonCpuFree c, .asserted c] ++ .devFree .cpu :: Γ))) := by
    refine LeadsTo.exchange [.asserted c] [.nonCpuFree c, .asserted c] hS (fun u h => safe u (h.subset (by grind))) present
      (fun m => loose m m.v _) (List.forall_mem_cons.2 ⟨rfl, fun f hf => (indep f hf).2.1⟩)
      (fun u hu _ hk => ⟨?_, clean_of_plain hu _ (by simp)⟩) fun u hu _ hk => ?_
    · obtain rfl := hu.cfg
      exact ownCheck_nonCpuMask hwf (.inl (hk (.powered (nonCpuPart c)) (by simp [powered])).1)
    · obtain rfl := hu.cfg
      have held : Fact.holds u (.asserted c) := hk _ (by simp)
      exact .cons (nonCpuAsserted_clearNonCpu hwf c) (.cons
        (fun k mask => (lineAsserted_clearNonCpu hwf c c k 0).trans (held k mask)) fun f hf => nomatch hf)
  have synced (after : List Op) : LeadsTo R S
      (At cfg (pollOp (.rstCmplxStatus c) (placeBit cfg.map.place.nonCpuInReset true) 0 :: after) M
        (Knows (.nonCpuFree c :: .asserted c :: .devFree .cpu :: Γ)))
      (At cfg after M (Knows (.nonCpuOut c :: .nonCpuFree c :: .asserted c :: .devFree .cpu :: Γ))) := by
    refine LeadsTo.pollFact (r := .rstCmplxStatus c) (.resetSync c) (.nonCpuOut c) hS
      (fun u h => safe u (h.subset (by grind))) loose present (by simp) (fun u hu _ => ?_) fun u x hu hk waits => ?_
    · rw [readValue, hu.cfg]
      exact nonCpuStatus_misses places _
    · have free : nonCpuAsserted u c = false := hk (.nonCpuFree c) (by simp)
      have inReset : u.nonCpuInReset.get c = true := by simpa [Fact.holds] using waits
      have on : isPowered u (nonCpuPart c) = true := (hk (.powered (nonCpuPart c)) (by simp [powered])).1
      refine ⟨present, by simp only [agentEnabled, free, inReset, on, Bool.not_false, Bool.and_self], ?_⟩
      exact PerCluster.get_set_self ..
  refine (complex _).trans (.trans ((nonCpu _).weaken fun u _ hk => hk.subset (by grind)) ((synced _).trans ?_))
  refine (LeadsTo.mirrorSoftReset hS (fun u h => safe u (h.subset (by grind))) loose ?_).trans ?_
  · simp only [List.forall_mem_cons]
    exact ⟨fun _ => rfl, fun _ => rfl, fun _ => rfl, fun _ => rfl, fun f hf => (indep f hf).2.2.2⟩
  refine (LeadsTo.clearOtherNonCpu hwf hS (fun u h => safe u (h.subset (by grind))) loose (by simp [active]) ?_).conclude
    fun u _ hk => hk.subset (by simp [releaseFacts])
  refine List.forall_mem_append.2 ⟨?_, ?_⟩
  · unfold mirrorFacts
    split <;> simp [Fact.indep]
  · simp only [List.forall_mem_cons]
    exact ⟨rfl, rfl, by simpa [Fact.indep] using other_ne c, rfl, fun f hf => (indep f hf).2.2.1⟩

end

end Sys2Proof.Machine
end

section
/-! PROOFS of what the procedures of the Boot Sequencer lead to: the programming of a PLL (rules R278 to R282). -/

namespace Sys2Proof.Machine

open Sys2Proof

/-! ### The table entries -/

theorem oscRow_mem {cfg : Config} (h : cfg.wf = true) (o : Word) : oscRow cfg o ∈ cfg.oscSet := by
  have default : cfg.oscDefault ∈ cfg.oscSet := by
    simp only [Config.wf, Config.oscSetOk, Bool.and_eq_true, List.contains_iff_mem] at h
    obtain ⟨⟨⟨⟨⟨-, -, default⟩, -⟩, -⟩, -⟩, -⟩ := h
    exact default
  rw [oscRow]
  cases found : cfg.oscSet.find? (fun x => x.code == o) with
  | none => exact default
  | some x => exact List.mem_of_find?_eq_some found

theorem wf_valuesFit {cfg : Config} (h : cfg.wf = true) :
    (∀ x ∈ cfg.oscSet, ∀ p, (x.pll.get p).fits cfg.map = true) ∧
      cfg.map.place.sysSrc.holds cfg.sysBootSrc = true ∧ cfg.map.place.cpuSrc.holds cfg.cpuBootSrc = true := by
  simp only [Config.wf, Config.valuesFit, Bool.and_eq_true, List.all_eq_true] at h
  obtain ⟨⟨-, ⟨⟨⟨rows, -⟩, -⟩, sys⟩, cpu⟩, -⟩ := h
  exact ⟨fun x hx p => (rows x hx).2 p p.mem_all, sys, cpu⟩

/-- What `program(p)` writes to `PLL_BASE[p]` for oscillator code `o` (rules R278, R280). -/
def programmedBase (cfg : Config) (p : PllId) (o : Word) (enable bypass : Bool) : PllBase where
  divm := (pllEntry cfg p o).divm
  divn := (pllEntry cfg p o).divn
  divp := (pllEntry cfg p o).divp
  enable := enable
  bypass := bypass

theorem programmedBase_fits {cfg : Config} (h : cfg.wf = true) (p : PllId) (o : Word) (enable bypass : Bool) :
    (programmedBase cfg p o enable bypass).fits cfg.map = true := by
  have row := (wf_valuesFit h).1 _ (oscRow_mem h o) p
  simp only [PllEntry.fits, Bool.and_eq_true] at row
  simp only [PllBase.fits, programmedBase, pllEntry, row, Bool.and_self]

theorem entry_runs {cfg : Config} (h : cfg.wf = true) {p : PllId} (run : entriesRun cfg p = true) (o : Word) :
    ((pllEntry cfg p o).divm != 0 && (pllEntry cfg p o).divn != 0) = true ∧
      (cfg.lockStrategy.get p = .pollLock → (pllEntry cfg p o).lockEnable = true ∧ cfg.lockReliable.get p = true) := by
  have row := List.all_eq_true.1 run _ (oscRow_mem h o)
  rw [Bool.and_eq_true] at row
  refine ⟨row.1, fun poll => ?_⟩
  simpa [poll, pllEntry] using row.2

/-- The data of the three writes of `PLL_BASE` (rules R280, R281). -/
theorem programmed_words {cfg : Config} {m : Master} {o : Word} (h : m.oscFreq = o) (p : PllId) :
    exprValue cfg m (.bor (.lit (bypassMask cfg.map)) (.pllDiv p)) =
        pllBaseWord cfg.map (programmedBase cfg p o false true) false ∧
      exprValue cfg m (.bor (.lit (enableMask cfg.map)) (.pllDiv p)) =
        pllBaseWord cfg.map (programmedBase cfg p o true false) false ∧
      exprValue cfg m (.bor (.lit (bypassMask cfg.map ||| enableMask cfg.map)) (.pllDiv p)) =
        pllBaseWord cfg.map (programmedBase cfg p o true true) false := by
  have off (n : Nat) : placeBit n false = 0 := by simp [placeBit]
  subst h
  simp [exprValue, pllBaseWord, programmedBase, bypassMask, enableMask, off]

/-! ### The clocks while a PLL is programmed -/

/-- The system clock does not depend on PLL `p`, or only on its output, which is never lost with a late bypass clear. -/
def SourceKept (cfg : Config) (p : PllId) (Γ : List Fact) : Prop :=
  .sysSrc cfg.map.sysCode.osc ∈ Γ ∨
    (.sysSrc cfg.map.sysCode.pllSys ∈ Γ ∧
      ((p = .sys ∧ cfg.bypassClearPhase.sys = .afterLock) ∨ (p ≠ .sys ∧ .runs .sys ∈ Γ)))

theorem SourceKept.mono {cfg : Config} {p : PllId} {Γ Γ' : List Fact} (h : SourceKept cfg p Γ) (sub : Γ ⊆ Γ') :
    SourceKept cfg p Γ' := by
  obtain osc | ⟨src, ⟨sys, late⟩ | ⟨other, runs⟩⟩ := h
  · exact .inl (sub osc)
  · exact .inr ⟨sub src, .inl ⟨sys, late⟩⟩
  · exact .inr ⟨sub src, .inr ⟨other, sub runs⟩⟩

theorem pllOutOk_of_runs {u : State} {p : PllId} (h : Fact.holds u (.runs p)) : pllOutOk u p = true := by
  simp [pllOutOk, h.1, h.2]

/-- A write of a register of PLL `p` keeps the clocks clean, if it keeps the output the system clock hangs on (rule
R182). -/
theorem clean_of_sourceKept {cfg : Config} {u : State} {p : PllId} {Γ : List Fact} {r : Reg} (hu : Steady cfg u)
    (known : Knows Γ u) (closed : .clk .cpu false ∈ Γ) (kept : SourceKept cfg p Γ) (d : Word)
    (hr : r = .pllBase p ∨ r = .pllOutA p ∨ r = .pllOutB p)
    (out : p = .sys → cfg.bypassClearPhase.sys = .afterLock → pllOutOk (storesOf d u r) .sys = true) :
    clockFault (storesOf d u r) = none := by
  obtain rfl := hu.cfg
  have gate : cpuGateOpen (storesOf d u r) = false := by
    have shut : u.clkEnb.get .cpu = false := known _ closed
    show (storesOf d u r).clkEnb.get .cpu = false
    rw [storesOf_clkEnb (by obtain rfl | rfl | rfl := hr <;> simp)]
    exact shut
  have source : (storesOf d u r).sysSrc = u.sysSrc := by obtain rfl | rfl | rfl := hr <;> rfl
  refine clockFault_eq_none.2 ⟨?_, fun opens => nomatch gate.symm.trans opens⟩
  obtain osc | ⟨src, need⟩ := kept
  · have same : u.sysSrc = u.cfg.map.sysCode.osc := known _ osc
    simp [sclkOk, source, same]
  · have same : u.sysSrc = u.cfg.map.sysCode.pllSys := known _ src
    have runs : pllOutOk (storesOf d u r) .sys = true := by
      obtain ⟨sys, late⟩ | ⟨other, runs⟩ := need
      · exact out sys late
      · rw [pllOutOk_storesOf (by obtain rfl | rfl | rfl := hr <;> simp [other])]
        exact pllOutOk_of_runs (known _ runs)
    simp [sclkOk, source, same, runs]

section
variable {cfg : Config} {R : FairRun} {S : State → Prop} {M M' : Master → Prop} {K : State → Prop} {rest : List Op}
  {Γ Γ' : List Fact} {Q : State → Prop} {p : PllId} {o : Word}

/-- A write of `PLL_BASE[p]` in `program`. -/
theorem LeadsTo.writeBase {e : Expr} (b : PllBase) (old new : List Fact) (hwf : cfg.wf = true) (hS : OfHardware S)
    (safe : ∀ u, Knows Γ u → S u) (loose : Loose M) (present : cfg.pllPresent p = true)
    (indep : ∀ f ∈ Γ, f.indep (.pllBase p) = true) (closed : .clk .cpu false ∈ Γ) (kept : SourceKept cfg p Γ)
    (fits : b.fits cfg.map = true) (word : ∀ m, M m → exprValue cfg m e = pllBaseWord cfg.map b false)
    (unchanged : ∀ u, Knows (old ++ Γ) u → reprogramsEnabled (u.pllBase.get p) b = false)
    (out : ∀ u, Knows (old ++ Γ) u → cfg.bypassClearPhase.get p = .afterLock →
      (b.bypass || (b.enable && ((u.pllBase.get p).enable && u.pllStable.get p))) = true)
    (establish : ∀ u, Knows (old ++ Γ) u → ∀ w : State, w.pllBase.get p = b →
      w.pllStable.get p = (((u.pllBase.get p).enable && b.enable) && u.pllStable.get p) → Knows new w) :
    LeadsTo R S (At cfg (wrOp (.pllBase p) e :: rest) M (Knows (old ++ Γ))) (At cfg rest M (Knows (new ++ Γ))) := by
  have places := wf_placesOk hwf
  have value (u : State) (hu : Steady cfg u) (hm : M u.master) :
      pllBaseOfWord u.cfg.map (exprValue cfg u.master e) = b := by
    rw [word _ hm, hu.cfg]
    exact pllBaseOfWord_pllBaseWord places fits false
  refine LeadsTo.exchange old new hS (fun u h => safe u (h.subset (List.subset_append_right _ _))) present
    (fun m => loose m m.v _) indep (fun u hu hm hk => ⟨?_, ?_⟩) fun u hu hm hk => ?_
  · rw [ownCheck, value u hu hm, unchanged u hk]
    rfl
  · refine clean_of_sourceKept (p := p) hu (hk.subset (List.subset_append_right _ _)) closed kept _ (.inl rfl)
      fun sys late => ?_
    subst sys
    obtain ⟨-, enable, bypass⟩ := pllBaseWord_flags places b false
    rw [pllOutOk_storesOf_pllBase, word _ hm, hu.cfg, enable, bypass]
    exact out u hk late
  · refine establish u hk _ ?_ ?_
    · show (u.pllBase.set p _).get p = b
      rw [PerPll.get_set_self, value u hu hm]
    · show (u.pllStable.set p _).get p = _
      rw [PerPll.get_set_self, value u hu hm, stableAfter_eq]

end

end Sys2Proof.Machine
end

section
/-! PROOFS of what the procedures of the Boot Sequencer lead to: the steps of `program`, and the PLL found running (rules
R279 to R282). -/

namespace Sys2Proof.Machine

open Sys2Proof

section
variable {cfg : Config} {R : FairRun} {S : State → Prop} {M M' : Master → Prop} {K : State → Prop} {rest : List Op}
  {Γ Γ' : List Fact} {Q : State → Prop} {p : PllId} {o : Word}

/-- What survives the programming of PLL `p`. -/
def Fact.outlastsProgram (p : PllId) (f : Fact) : Bool := f.indep (.pllBase p) && f.indep (.pllMisc p) && f.indep .tmrPtv

theorem Fact.indep_taps (f : Fact) : f.indep (.pllOutA p) = true ∧ f.indep (.pllOutB p) = true := by
  cases f <;> simp [Fact.indep, PllId.all]

/-- What `program` needs of the state it starts from, and of its surroundings, while it programs PLL `p`. -/
structure Programmable (cfg : Config) (S : State → Prop) (M : Master → Prop) (Γ : List Fact) (p : PllId) (o : Word) :
    Prop where
  wf : cfg.wf = true
  hardware : OfHardware S
  safe : ∀ u, Knows Γ u → S u
  loose : Loose M
  code : ∀ m, M m → m.oscFreq = o
  notUsb : p ≠ .usb
  lasts : ∀ f ∈ Γ, f.outlastsProgram p = true
  closed : .clk .cpu false ∈ Γ
  kept : SourceKept cfg p Γ
  run : entriesRun cfg p = true
  usable : cfg.lockStrategy.get p = .fixedDelay → ∀ u, Steady cfg u → Knows Γ u → periphUsable u .timer = true
  calm : cfg.lockStrategy.get p = .fixedDelay → ∀ u, Steady cfg u → Knows Γ u → ∀ q, q ≠ p → pllHolds u q = true →
    cfg.pllStabUs.get q ≤ cfg.pllStabUs.get p → dividersRun u q = true

namespace Programmable

theorem indep (h : Programmable cfg S M Γ p o) : ∀ f ∈ Γ,
    f.indep (.pllBase p) = true ∧ f.indep (.pllMisc p) = true ∧ f.indep .tmrPtv = true := fun f hf => by
  have all := h.lasts f hf
  simp only [Fact.outlastsProgram, Bool.and_eq_true] at all
  exact ⟨all.1.1, all.1.2, all.2⟩

theorem present (h : Programmable cfg S M Γ p o) : cfg.pllPresent p = true := by
  cases p with
  | usb => exact absurd rfl h.notUsb
  | _ => rfl

/-- The dividers `program` writes let the PLL run. -/
theorem dividers (h : Programmable cfg S M Γ p o) {u : State} {enable bypass : Bool}
    (base : Fact.holds u (.base p (programmedBase cfg p o enable bypass))) : dividersRun u p = true := by
  have base : u.pllBase.get p = _ := base
  rw [dividersRun, base]
  exact (entry_runs h.wf h.run o).1

end Programmable

/-- What `PLL_MISC` holds once it is programmed (rule R280). -/
def lockFacts (cfg : Config) (p : PllId) : List Fact := if cfg.lockStrategy.get p = .pollLock then [.lockOn p] else []

theorem lockFacts_indep {f : Fact} (hf : f ∈ lockFacts cfg p) (r : Reg) (hr : r ≠ .pllMisc p) : f.indep r = true := by
  unfold lockFacts at hf
  split at hf
  · obtain rfl := List.mem_singleton.1 hf
    simpa [Fact.indep] using hr
  · cases hf

/-- The bypass as it stands while the PLL locks (rule R280, conflict C4). -/
def lateBypass (cfg : Config) (p : PllId) : Bool := cfg.bypassClearPhase.get p == .afterLock

/-- `program`, steps 1 to 3 (rule R280). -/
theorem LeadsTo.programEnable (h : Programmable cfg S M Γ p o) :
    LeadsTo R S (At cfg (programEnable cfg p ++ rest) M (Knows Γ))
      (At cfg rest M (Knows ([.base p (programmedBase cfg p o true (lateBypass cfg p))] ++ (lockFacts cfg p ++ Γ)))) := by
  have first (after : List Op) : LeadsTo R S
      (At cfg (wrOp (.pllBase p) (.bor (.lit (bypassMask cfg.map)) (.pllDiv p)) :: after) M (Knows ([] ++ Γ)))
      (At cfg after M (Knows ([.base p (programmedBase cfg p o false true)] ++ Γ))) :=
    LeadsTo.writeBase (programmedBase cfg p o false true) [] _ h.wf h.hardware h.safe h.loose h.present
      (fun f hf => (h.indep f hf).1) h.closed h.kept (programmedBase_fits h.wf ..)
      (fun m hm => (programmed_words (h.code m hm) p).1) (fun u _ => by simp [reprogramsEnabled, programmedBase])
      (fun _ _ _ => rfl) fun _ _ _ base _ => List.forall_mem_singleton.2 base
  have misc (after : List Op) : LeadsTo R S
      (At cfg (wrOp (.pllMisc p) (.pllMiscWord p) :: after) M
        (Knows ([] ++ ([.base p (programmedBase cfg p o false true)] ++ Γ))))
      (At cfg after M (Knows (lockFacts cfg p ++ ([.base p (programmedBase cfg p o false true)] ++ Γ)))) := by
    refine LeadsTo.exchange [] (lockFacts cfg p) h.hardware (fun u k => h.safe u (k.subset (by simp))) h.present
      (fun m => h.loose m m.v _) (List.forall_mem_cons.2 ⟨rfl, fun f hf => (h.indep f hf).2.1⟩)
      (fun u hu _ _ => ⟨rfl, clean_of_plain hu _ (by simp)⟩) fun u hu hm _ f hf => ?_
    unfold lockFacts at hf
    split at hf
    next poll =>
      obtain rfl := List.mem_singleton.1 hf
      obtain rfl := hu.cfg
      show ((u.pllMisc.set p _).get p).lockEnable = true
      rw [PerPll.get_set_self, exprValue, lockEnable_pllMiscWord (wf_placesOk h.wf), h.code _ hm]
      exact ((entry_runs h.wf h.run o).2 poll).1
    next => cases hf
  have last (after : List Op) (e : Expr)
      (word : ∀ m, M m →
        exprValue cfg m e = pllBaseWord cfg.map (programmedBase cfg p o true (lateBypass cfg p)) false) :
      LeadsTo R S
        (At cfg (wrOp (.pllBase p) e :: after) M
          (Knows ([.base p (programmedBase cfg p o false true)] ++ (lockFacts cfg p ++ Γ))))
        (At cfg after M
          (Knows ([.base p (programmedBase cfg p o true (lateBypass cfg p))] ++ (lockFacts cfg p ++ Γ)))) := by
    refine LeadsTo.writeBase _ [.base p (programmedBase cfg p o false true)] _ h.wf h.hardware
      (fun u k => h.safe u (k.subset (by simp))) h.loose h.present ?_ (List.mem_append_right _ h.closed)
      (h.kept.mono (List.subset_append_right _ _)) (programmedBase_fits h.wf ..) word (fun u hk => ?_)
      (fun u _ late => ?_) fun _ _ _ base _ => List.forall_mem_singleton.2 base
    · exact List.forall_mem_append.2 ⟨fun f hf => lockFacts_indep hf _ (by simp), fun f hf => (h.indep f hf).1⟩
    · have before : u.pllBase.get p = programmedBase cfg p o false true := hk _ List.mem_cons_self
      rw [before]
      rfl
    · show (lateBypass cfg p || _) = true
      rw [lateBypass, late]
      rfl
  obtain ⟨e, shape, word⟩ : ∃ e,
      Machine.programEnable cfg p =
        [wrOp (.pllBase p) (.bor (.lit (bypassMask cfg.map)) (.pllDiv p)), wrOp (.pllMisc p) (.pllMiscWord p),
          wrOp (.pllBase p) e] ∧
      ∀ m, M m → exprValue cfg m e = pllBaseWord cfg.map (programmedBase cfg p o true (lateBypass cfg p)) false := by
    unfold Machine.programEnable
    cases phase : cfg.bypassClearPhase.get p with
    | withEnable => exact ⟨_, rfl, fun m hm => by rw [lateBypass, phase]; exact (programmed_words (h.code m hm) p).2.1⟩
    | afterLock => exact ⟨_, rfl, fun m hm => by rw [lateBypass, phase]; exact (programmed_words (h.code m hm) p).2.2⟩
  rw [shape]
  exact (first _).trans ((misc _).trans ((last rest e word).weaken fun u _ hk => hk.subset (by grind)))

/-- `program`, step 4: the wait (rule R281). -/
theorem LeadsTo.programWait (h : Programmable cfg S M Γ p o) {bypass : Bool} :
    LeadsTo R S
      (At cfg (programWait cfg p ++ rest) M
        (Knows (.base p (programmedBase cfg p o true bypass) :: (lockFacts cfg p ++ Γ))))
      (At cfg rest M (Knows (.runs p :: .base p (programmedBase cfg p o true bypass) :: Γ))) := by
  have known {u : State} {Δ : List Fact} (sub : Γ ⊆ Δ) (hk : Knows Δ u) : Knows Γ u := hk.subset sub
  have sub : Γ ⊆ .base p (programmedBase cfg p o true bypass) :: (lockFacts cfg p ++ Γ) := by grind
  have enabled {u : State} (hb : Fact.holds u (.base p (programmedBase cfg p o true bypass))) :
      (u.pllBase.get p).enable = true := by
    have hb : u.pllBase.get p = _ := hb
    rw [hb]
    rfl
  unfold Machine.programWait
  split
  next poll =>
    refine (LeadsTo.pollFact (r := .pllBase p) (.pll p) (.runs p) h.hardware (fun u k => h.safe u (known sub k)) h.loose
      h.present (by simp) (fun u hu hk => ?_) fun u x hu hk waits => ?_).conclude fun u _ hk => hk.subset (by grind)
    · have base : Fact.holds u (.base p (programmedBase cfg p o true bypass)) := hk _ (by simp)
      have lock : Fact.holds u (.lockOn p) := hk _ (by simp [lockFacts, poll])
      have lock : (u.pllMisc.get p).lockEnable = true := lock
      have reliable := ((entry_runs h.wf h.run o).2 poll).2
      obtain rfl := hu.cfg
      show pllBaseWord u.cfg.map (u.pllBase.get p) (lockBit u p) &&& lockMask u.cfg.map = lockMask u.cfg.map ↔ _
      rw [lockMask, meets_flag_iff (pllPlaces (wf_placesOk h.wf)).1.1, (pllBaseWord_flags (wf_placesOk h.wf) _ _).1, lockBit,
        enabled base, lock, reliable]
      simp [Fact.holds, enabled base]
    · have base : Fact.holds u (.base p (programmedBase cfg p o true bypass)) := hk _ (by simp)
      have pending : u.pllStable.get p = false := by
        simpa [Fact.holds, enabled base] using waits
      refine ⟨h.present, by simp only [agentEnabled, enabled base, pending, h.dividers base, Bool.not_false,
        Bool.and_self], ?_, PerPll.get_set_self ..⟩
      show ((stabilise p u).pllBase.get p).enable = true
      exact enabled base
  next fixed =>
    have none : lockFacts cfg p = [] := by simp [lockFacts, fixed]
    rw [none, List.nil_append]
    have span := (wf_bounds h.wf).1 p
    have sub : Γ ⊆ .base p (programmedBase cfg p o true bypass) :: Γ := List.subset_cons_self _ _
    refine LeadsTo.stall [.awaitsPll p] [.runs p] h.wf h.hardware (fun u k => h.safe u (known sub k)) h.loose
      (List.forall_mem_cons.2 ⟨rfl, fun f hf => (h.indep f hf).2.2⟩) (List.forall_mem_singleton.2 rfl) span
      (fun u hu hk => h.usable fixed u hu (known sub hk)) (fun u hu hk q holds bound => ?_) (fun u hu hk => ?_)
      fun u hu hk expired => List.forall_mem_singleton.2 ?_
    · by_cases same : q = p
      · subst same
        exact h.dividers (hk _ List.mem_cons_self)
      · exact h.calm fixed u hu (known sub hk) q same holds bound
    · obtain rfl := hu.cfg
      have base : Fact.holds u (.base p (programmedBase u.cfg p o true bypass)) := hk _ List.mem_cons_self
      have width := wf_timerOk h.wf
      rw [stallSpan] at span
      exact List.forall_mem_singleton.2 (awaitsPll_stored (wf_placesOk h.wf) (by omega) h.present (enabled base)
        (h.dividers base) (Nat.le_refl _))
    · obtain ⟨⟨-, on, -⟩, stable⟩ : Fact.holds u (.awaitsPll p) := hk _ List.mem_cons_self
      exact ⟨on, stable.resolve_right fun waits => nomatch expired.symm.trans waits.1⟩

/-- `program`, step 4': the late bypass clear (rule R281). -/
theorem LeadsTo.programBypass (h : Programmable cfg S M Γ p o) {bypass : Bool} :
    LeadsTo R S
      (At cfg (programBypass cfg p ++ rest) M (Knows ([.runs p, .base p (programmedBase cfg p o true bypass)] ++ Γ)))
      (At cfg rest M (Knows ([.runs p] ++ Γ))) := by
  unfold Machine.programBypass
  split
  next => exact LeadsTo.of_imp (At.mono (fun _ h => h) fun u _ hk => hk.subset (by grind))
  next =>
    refine LeadsTo.writeBase (programmedBase cfg p o true false) _ [.runs p] h.wf h.hardware h.safe h.loose h.present
      (fun f hf => (h.indep f hf).1) h.closed h.kept (programmedBase_fits h.wf ..)
      (fun m hm => (programmed_words (h.code m hm) p).2.1) (fun u hk => ?_) (fun u hk _ => ?_) fun u hk w base stable => ?_
    · have before : u.pllBase.get p = programmedBase cfg p o true bypass :=
        hk (.base p (programmedBase cfg p o true bypass)) (by simp)
      rw [before]
      simp [reprogramsEnabled, programmedBase]
    · obtain ⟨on, stable⟩ : Fact.holds u (.runs p) := hk _ List.mem_cons_self
      rw [on, stable]
      rfl
    · obtain ⟨on, before⟩ : Fact.holds u (.runs p) := hk _ List.mem_cons_self
      exact List.forall_mem_singleton.2 ⟨by rw [base]; rfl, by rw [stable, on, before]; rfl⟩

/-- The two writes of a tap register of a PLL that runs (rules R151, R282). -/
theorem LeadsTo.programTapReg {r : Reg} (h : Programmable cfg S M Γ p o) (hr : r = .pllOutA p ∨ r = .pllOutB p)
    (runs : .runs p ∈ Γ') (sub : Γ ⊆ Γ') :
    LeadsTo R S (At cfg (programTapReg cfg p r ++ rest) M (Knows Γ')) (At cfg rest M (Knows Γ')) := by
  have write (w : Word) (after : List Op) (some : ¬(r.taps cfg).isEmpty = true) : LeadsTo R S
      (At cfg (wrOp r (.lit w) :: after) M (Knows ([] ++ Γ'))) (At cfg after M (Knows ([] ++ Γ'))) := by
    refine LeadsTo.exchange [] [] h.hardware (fun u k => h.safe u (k.subset sub)) ?_ (fun m => h.loose m m.v _)
      (fun f _ => ?_) (fun u hu _ hk => ⟨?_, ?_⟩) fun _ _ _ _ f hf => nomatch hf
    · have taps := Bool.eq_false_iff.2 some
      obtain rfl | rfl := hr <;> simp only [Reg.present, h.present, taps, Bool.not_false, Bool.and_self]
    · obtain rfl | rfl := hr
      · exact f.indep_taps.1
      · exact f.indep_taps.2
    · have out : pllOutOk u p = true := pllOutOk_of_runs (hk _ runs)
      have noHazard : (r.taps u.cfg).find? (tapHazard u p w) = none :=
        List.find?_eq_none.2 fun x _ => by simp [tapHazard, out]
      obtain rfl | rfl := hr <;> exact congrArg (Option.map _) noHazard
    · have hk : Knows Γ' u := hk
      refine clean_of_sourceKept (p := p) hu (hk.subset sub) h.closed h.kept _ (.inr hr) fun sys _ => ?_
      subst sys
      rw [pllOutOk_storesOf (by obtain rfl | rfl := hr <;> simp)]
      exact pllOutOk_of_runs (hk _ runs)
  unfold Machine.programTapReg
  split
  next => exact LeadsTo.of_imp fun _ h => h
  next some => exact (write _ _ some).trans (write _ _ some)

/-- `program` (rules R280 to R282). -/
theorem LeadsTo.programSteps (h : Programmable cfg S M Γ p o) :
    LeadsTo R S
      (At cfg
        (Machine.programEnable cfg p ++ Machine.programWait cfg p ++ Machine.programBypass cfg p ++ programTaps cfg p ++
          rest) M (Knows Γ))
      (At cfg rest M (Knows (.runs p :: Γ))) := by
  rw [List.append_assoc, List.append_assoc, List.append_assoc, programTaps, List.append_assoc]
  have sub : Γ ⊆ .runs p :: Γ := List.subset_cons_self _ _
  refine (LeadsTo.programEnable h).trans ((LeadsTo.programWait h).trans ((LeadsTo.programBypass h).trans ?_))
  exact (LeadsTo.programTapReg h (.inl rfl) List.mem_cons_self sub).trans
    (LeadsTo.programTapReg h (.inr rfl) List.mem_cons_self sub)

/-- The PLL is found running: `PLL_MISC` may be completed, and nothing else is written (rule R279). -/
theorem LeadsTo.lockEnableFix (hS : OfHardware S) (safe : ∀ u, Knows Γ u → S u) (loose : Loose M)
    (present : cfg.pllPresent p = true) (indep : ∀ f ∈ Γ, f.indep (.pllMisc p) = true) :
    LeadsTo R S
      (At cfg (rdOp (.pllMisc p) :: (ifOps (.scratchIs (lockEnableMask cfg.map) 0)
        [wrOp (.pllMisc p) (.bor .scratch (.lit (lockEnableMask cfg.map)))] ++ rest)) M (Knows Γ))
      (At cfg rest M (Knows Γ)) := by
  refine (LeadsTo.read (r := .pllMisc p) (M' := M) hS (knows_lasting cfg Γ) safe present
    fun u hu hm _ => loose _ _ _ hm).trans ?_
  refine (LeadsTo.of_imp At.branch).trans (LeadsTo.cases ?_ (LeadsTo.of_imp (At.mono (fun _ h => h.1) fun _ _ h => h)))
  have write : LeadsTo R S
      (At cfg ([wrOp (.pllMisc p) (.bor .scratch (.lit (lockEnableMask cfg.map)))] ++ rest)
        (fun m => M m ∧ condHolds cfg m (.scratchIs (lockEnableMask cfg.map) 0) = true) (Knows ([] ++ Γ)))
      (At cfg rest M (Knows ([] ++ Γ))) :=
    LeadsTo.exchange [] [] hS safe present (fun m hm => loose m m.v _ hm.1) indep
      (fun u hu _ _ => ⟨rfl, clean_of_plain hu _ (by simp)⟩) fun _ _ _ _ f hf => nomatch hf
  exact write

/-- `program(p)` (rules R278 to R282). -/
theorem LeadsTo.programPll {b : PllBase} (hwf : cfg.wf = true) (hS : OfHardware S) (safe : ∀ u, Knows Γ u → S u)
    (loose : Loose M) (present : cfg.pllPresent p = true) (lasts : ∀ f ∈ Γ, f.outlastsProgram p = true)
    (program : ¬(b.enable = true ∧ (cfg.checkBypass.get p = true → b.bypass = false)) → Programmable cfg S M Γ p o) :
    LeadsTo R S (At cfg (programPll cfg p ++ rest) M (Knows (.base p b :: .settled p :: Γ)))
      (At cfg rest M (Knows (.runs p :: Γ))) := by
  have known := knows_lasting cfg (.base p b :: .settled p :: Γ)
  have sub : Γ ⊆ .base p b :: .settled p :: Γ := by grind
  have test (u : State) (hu : Steady cfg u) (hk : Knows (.base p b :: .settled p :: Γ) u) :
      readValue u (.pllBase p) &&& enabledTestMask cfg p = enableMask cfg.map ↔
        b.enable = true ∧ (cfg.checkBypass.get p = true → b.bypass = false) := by
    have base : u.pllBase.get p = b := hk _ List.mem_cons_self
    show pllBaseWord u.cfg.map (u.pllBase.get p) (lockBit u p) &&& _ = _ ↔ _
    rw [hu.cfg, base]
    exact enabledTest_iff (wf_placesOk hwf) p b _
  unfold Machine.programPll
  by_cases found : b.enable = true ∧ (cfg.checkBypass.get p = true → b.bypass = false)
  case pos =>
    refine (LeadsTo.readFirst (r := .pllBase p) hS known (fun u k => safe u (k.subset sub)) loose present
      fun u ops hu _ hk => ?_).trans ?_
    · exact beq_iff_eq.2 ((test u hu hk).2 found)
    · refine LeadsTo.imp_left (At.mono (fun _ h => h.1) fun _ _ h => h) ((LeadsTo.lockEnableFix hS
        (fun u k => safe u (k.subset sub)) loose present ?_).trans ((LeadsTo.of_imp At.jump).conclude fun u _ hk => ?_))
      · refine List.forall_mem_cons.2 ⟨rfl, List.forall_mem_cons.2 ⟨rfl, fun f hf => ?_⟩⟩
        have all := lasts f hf
        simp only [Fact.outlastsProgram, Bool.and_eq_true] at all
        exact all.1.2
      · have base : u.pllBase.get p = b := hk _ List.mem_cons_self
        have settled : Fact.holds u (.settled p) := hk _ (by simp)
        have on : (u.pllBase.get p).enable = true := by rw [base]; exact found.1
        exact .cons ⟨on, settled on⟩ (hk.subset sub)
  case neg =>
    refine (LeadsTo.readSecond (r := .pllBase p) hS known (fun u k => safe u (k.subset sub)) loose present
      fun u ops hu _ hk => ?_).trans ((LeadsTo.programSteps (program found)).weaken fun u _ hk => hk.subset sub)
    exact beq_eq_false_iff_ne.2 (mt (test u hu hk).1 found)

end

end Sys2Proof.Machine
end

section
/-! PROOFS of what the transitions of the Boot Sequencer lead to: 1 and 2 (rules R258, R276, R283 to R288, R300 to R302). -/

namespace Sys2Proof.Machine

open Sys2Proof

/-! ### A start of the claim of rule R371 -/

/-- A state the end-state claim starts from, with the cluster that boots. -/
structure BootStart (s : State) (c : Cluster) : Prop where
  reset : s.ResetOk
  pre : s.PreBoot
  source : ¬s.BypassedSource
  countdown : ¬s.StuckCountdown
  selected : s.bootCluster = if c = .p then .performance else .efficiency

namespace BootStart

variable {s : State} {c : Cluster}

theorem present (h : BootStart s c) : s.cfg.clusterPresent c = true := by
  cases c with
  | p => rfl
  | e => exact h.pre.dual h.selected

/-- The system clock hangs on the output of the system PLL alone, if that is programmed anew while in use. -/
theorem source_kept (h : BootStart s c)
    (fresh : ¬((s.pllBase.get .sys).enable = true ∧
      (s.cfg.checkBypass.get .sys = true → (s.pllBase.get .sys).bypass = false))) :
    s.sysSrc = s.cfg.map.sysCode.osc ∨
      (s.sysSrc = s.cfg.map.sysCode.pllSys ∧ s.cfg.bypassClearPhase.sys = .afterLock) := by
  obtain osc | on := h.pre.source
  · exact .inl osc
  have tested : s.cfg.checkBypass.sys = true ∧ (s.pllBase.get .sys).bypass = true := by
    have := not_and.1 fresh on
    rw [Classical.not_imp, Bool.not_eq_false] at this
    exact this
  refine or_iff_not_imp_left.2 fun osc => ?_
  have safe : ¬(s.cfg.bypassClearPhase.sys = .withEnable ∨ sourceIsTap s) := fun corner =>
    h.source ⟨tested.1, on, tested.2, osc, corner⟩
  obtain ⟨early, tap⟩ := not_or.1 safe
  refine ⟨?_, by cases phase : s.cfg.bypassClearPhase.sys <;> simp_all⟩
  have clean := (clockFault_eq_none.1 h.reset.inv.clocks).1
  simp only [sclkOk, Bool.or_eq_true, beq_iff_eq, Bool.and_eq_true, List.any_eq_true, sysTapOk] at clean
  obtain (atOsc | ⟨atPll, -⟩) | ⟨k, -, code, -⟩ := clean
  · exact absurd atOsc osc
  · exact atPll
  · exact absurd (List.mem_of_getElem? code) tap

/-- A stall of a fixed delay is one of those the run makes. -/
theorem fixed_stall (_ : BootStart s c) {p : PllId} (hp : p = .sys ∨ p = .cpu)
    (fixed : s.cfg.lockStrategy.get p = .fixedDelay)
    (fresh : ¬((s.pllBase.get p).enable = true ∧ (s.cfg.checkBypass.get p = true → (s.pllBase.get p).bypass = false))) :
    s.cfg.pllStabUs.get p ∈ bootStalls s := by
  have notFound : foundRunning s p = false := by
    rw [foundRunning]
    cases on : (s.pllBase.get p).enable with
    | false => rfl
    | true =>
      have := not_and.1 fresh on
      rw [Classical.not_imp, Bool.not_eq_false] at this
      rw [this.1, this.2]
      rfl
  refine List.mem_cons_of_mem _ (List.mem_map_of_mem (List.mem_filter.2 ⟨?_, ?_⟩))
  · simpa using hp
  · rw [fixed, notFound]
    rfl

/-- The USB PLL does not hold up any stall of the run for ever. -/
theorem unstuck (h : BootStart s c) : Fact.holds s (.unstuck (bootStalls s)) := by
  refine or_iff_not_imp_right.2 fun stuck => fun d hd => Nat.not_le.1 fun bound => ?_
  obtain ⟨holds, dividers⟩ := Classical.not_imp.1 stuck
  simp only [pllHolds, Bool.and_eq_true, Bool.or_eq_true, beq_iff_eq] at holds
  exact h.countdown ⟨holds.2.resolve_right dividers, holds.1, Bool.eq_false_iff.2 dividers, d, hd, bound⟩

end BootStart

/-- What is known when the Boot Sequencer starts (rules R351, R372). -/
def startFacts (s : State) : List Fact :=
  [.clk .cpu false, .base .sys (s.pllBase.get .sys), .settled .sys, .base .cpu (s.pllBase.get .cpu), .settled .cpu,
    .sysSrc s.sysSrc, .idle, .unstuck (bootStalls s), .timerReady, .vector s.resetVector,
    .fuses (bondOutWord s) (cpuDisableWord s)]

theorem knows_startFacts {s : State} {c : Cluster} (h : BootStart s c) : Knows (startFacts s) s := by
  simp only [startFacts, Knows, List.forall_mem_cons]
  exact ⟨h.pre.gate, rfl, h.pre.settled .sys (.inl rfl), rfl, h.pre.settled .cpu (.inr rfl), rfl, h.pre.idle, h.unstuck,
    h.pre.usable, rfl, ⟨rfl, rfl⟩, fun _ hf => nomatch hf⟩

/-- Where the master stands: its state, the cluster it boots and the vector it was given. -/
def Stage (seq : SeqState) (c : Cluster) (rv : Word) (m : Master) : Prop :=
  m.seq = seq ∧ m.bootCluster = (if c = .p then .performance else .efficiency) ∧ m.resetVector = rv

theorem stage_loose (seq : SeqState) (c : Cluster) (rv : Word) : Loose (Stage seq c rv) := fun _ _ _ h => h

/-- Core 0 of cluster `c` does not run yet. -/
def NotYet (c : Cluster) (u : State) : Prop := core0Runs u c = false

theorem notYet_hardware (c : Cluster) : OfHardware (NotYet c) := by
  intro u v hw hc h
  obtain ⟨a⟩ := u
  obtain ⟨b⟩ := v
  obtain rfl : b = a := hw
  obtain rfl : _ = _ := hc
  exact h

theorem notYet_of_closed {c : Cluster} {Γ : List Fact} (closed : .clk .cpu false ∈ Γ) (u : State) (h : Knows Γ u) :
    NotYet c u := by
  have shut : u.clkEnb.cpu = false := h _ closed
  simp [NotYet, core0Runs, cpuGateOpen, shut]

theorem notYet_of_asserted {c : Cluster} {Γ : List Fact} (asserted : .asserted c ∈ Γ) (u : State) (h : Knows Γ u) :
    NotYet c u := by
  have line : lineAsserted u c .cpu 0 = true := h _ asserted .cpu (.inl rfl)
  simp [NotYet, core0Runs, line]

section
variable {cfg : Config} {R : FairRun} {S : State → Prop} {M M' : Master → Prop} {K : State → Prop} {rest : List Op}
  {Γ Γ' : List Fact} {Q : State → Prop} {p : PllId} {o : Word}

/-! ### Statements without facts -/

theorem LeadsTo.assert {c : Cond} {ch : Byte} (hS : OfHardware S) (hK : Lasting cfg K) (safe : ∀ u, K u → S u)
    (loose : Loose M) : LeadsTo R S (At cfg (assertOp c ch :: rest) M K) (At cfg rest M K) :=
  (LeadsTo.of_imp At.assert).trans (LeadsTo.cases (LeadsTo.of_imp fun _ h => h)
    (LeadsTo.post hS hK safe fun m => loose m m.v _))

/-- A write of a register that no fact is about and that has no check. -/
theorem LeadsTo.writePlain {r : Reg} {e : Expr} (hS : OfHardware S) (safe : ∀ u, Knows Γ u → S u) (loose : Loose M)
    (present : r.present cfg = true) (indep : ∀ f ∈ Γ, f.indep r = true) (unchecked : ∀ d u, ownCheck d u r = none)
    (hr : ¬(r = .sclkBurstPolicy ∨ r = .cclkBurstPolicy ∨ r = .clkEnb ∨
      ∃ p, r = .pllBase p ∨ r = .pllOutA p ∨ r = .pllOutB p)) :
    LeadsTo R S (At cfg (wrOp r e :: rest) M (Knows Γ)) (At cfg rest M (Knows Γ)) :=
  LeadsTo.exchange [] [] hS safe present (fun m => loose m m.v _) indep
    (fun u hu _ _ => ⟨unchecked _ u, clean_of_plain hu _ hr⟩) fun _ _ _ _ _ hf => nomatch hf

/-- The end of a transition: `seq` moves on, and its `Post` is next (rule R300). -/
theorem At.endTransition {seq : SeqState} {c : Cluster} {rv : Word} {ch : Byte} (hK : OfHardware K) (t : State)
    (h : At cfg (endTransition ch ++ rest) (Stage seq c rv) K t) :
    At cfg (postOp ch :: rest) (Stage seq.succ c rv) K t :=
  At.advance hK (fun _ hm => ⟨congrArg SeqState.succ hm.1, hm.2⟩) t h

theorem LeadsTo.endTransition {seq : SeqState} {c : Cluster} {rv : Word} {ch : Byte} (hS : OfHardware S)
    (hK : Lasting cfg K) (safe : ∀ u, K u → S u) :
    LeadsTo R S (At cfg (endTransition ch ++ rest) (Stage seq c rv) K) (At cfg rest (Stage seq.succ c rv) K) :=
  (LeadsTo.of_imp (At.endTransition hK.congr)).trans
    (LeadsTo.post hS hK safe fun m => stage_loose _ _ _ m m.v _)

/-! ### The oscillator and the clock sources (rules R258, R276, R283, R284) -/

/-- `getOscFreq()` (rule R258). -/
theorem LeadsTo.getOscFreq (hwf : cfg.wf = true) (hS : OfHardware S) (safe : ∀ u, Knows Γ u → S u) (loose : Loose M)
    (osc : ∀ m x, M m → M { m with oscFreq := x }) (indep : ∀ f ∈ Γ, f.indep .oscFreqDet = true) :
    LeadsTo R S (At cfg (getOscFreq cfg ++ rest) M (Knows Γ)) (At cfg rest M (Knows Γ)) := by
  have known := knows_lasting cfg Γ
  have read (r : Reg) (present : r.present cfg = true) (after : List Op) :
      LeadsTo R S (At cfg (rdOp r :: after) M (Knows Γ)) (At cfg after M (Knows Γ)) :=
    LeadsTo.read hS known safe present fun u _ hm _ => loose _ _ _ hm
  unfold Machine.getOscFreq
  refine (read .flags rfl _).trans ((LeadsTo.of_imp At.branchElse).trans (LeadsTo.cases ?recorded ?measured))
  case recorded =>
    refine LeadsTo.imp_left (At.mono (fun _ h => h.1) fun _ _ h => h) ((read .oscCtrl rfl _).trans ?_)
    refine (LeadsTo.of_imp (At.let known.congr fun m hm => osc m _ hm)).trans ((read .birOscFreq rfl _).trans ?_)
    exact (LeadsTo.assert hS known safe loose).trans (LeadsTo.of_imp At.jump)
  case measured =>
    refine LeadsTo.imp_left (At.mono (fun _ h => h.1) fun _ _ h => h) ((LeadsTo.writePlain (r := .oscFreqDet) hS safe loose
      rfl indep (fun _ _ => rfl) (by simp)).trans ?_)
    refine (LeadsTo.pollFact .freqDet .measured hS safe loose rfl (by simp) (fun u hu _ => ?_)
      fun u x hu _ waits => ⟨rfl, ?_, rfl⟩).trans
      ((LeadsTo.of_imp (At.let (knows_congr _) fun m hm => osc m _ hm)).conclude fun u _ hk => hk.subset (by grind))
    · rw [readValue, hu.cfg]
      exact detBusy_misses (wf_placesOk hwf) u.detBusy _
    · exact Bool.not_eq_false _ ▸ waits

/-- `switchSystemClockSource(src)` to a source that is clean (rule R283). -/
theorem LeadsTo.switchSystemClockSource {src w : Word} (hwf : cfg.wf = true) (hS : OfHardware S)
    (safe : ∀ u, Knows Γ u → S u) (loose : Loose M)
    (indep : ∀ f ∈ Γ, f.indep .sclkBurstPolicy = true ∧ f.indep .sclkDivider = true) (closed : .clk .cpu false ∈ Γ)
    (fits : cfg.map.place.sysSrc.holds src = true) (runs : .runs .sys ∈ Γ)
    (source : src = cfg.map.sysCode.osc ∨ src = cfg.map.sysCode.pllSys) :
    LeadsTo R S (At cfg (switchSystemClockSource cfg src ++ rest) M (Knows ([.sysSrc w] ++ Γ)))
      (At cfg rest M (Knows ([.sysSrc src] ++ Γ))) := by
  have places := wf_placesOk hwf
  refine LeadsTo.trans (LeadsTo.exchange [.sysSrc w] [.sysSrc src] hS (fun u h => safe u (h.subset (by grind))) rfl
    (fun m => loose m m.v _) (fun f hf => (indep f hf).1) (fun u hu _ hk => ⟨rfl, ?_⟩)
    fun u hu _ _ => List.forall_mem_singleton.2 ?_)
    (LeadsTo.writePlain hS (fun u h => safe u (h.subset (by grind))) loose rfl
      (List.forall_mem_cons.2 ⟨rfl, fun f hf => (indep f hf).2⟩) (fun _ _ => rfl) (by simp))
  · obtain rfl := hu.cfg
    have shut : cpuGateOpen u = false := hk (.clk .cpu false) (by simp [closed])
    have runs : Fact.holds u (.runs .sys) := hk _ (by simp [runs])
    have out : pllOutOk (storesOf (putField u.cfg.map.place.sysSrc src) u .sclkBurstPolicy) .sys = true := by
      rw [pllOutOk_storesOf (by simp)]
      exact pllOutOk_of_runs runs
    have now : (storesOf (putField u.cfg.map.place.sysSrc src) u .sclkBurstPolicy).sysSrc = src := sysSrc_kept places fits
    refine clockFault_eq_none.2 ⟨?_, fun opens => nomatch shut.symm.trans opens⟩
    show sclkOk (storesOf (putField u.cfg.map.place.sysSrc src) u .sclkBurstPolicy) = true
    simp only [sclkOk, now, out, Bool.and_true, Bool.or_eq_true, beq_iff_eq]
    exact .inl source
  · obtain rfl := hu.cfg
    exact sysSrc_kept places fits

/-- `setCpuClockSource(src)` behind a closed gate (rule R284). -/
theorem LeadsTo.setCpuClockSource {src : Word} (hwf : cfg.wf = true) (hS : OfHardware S) (safe : ∀ u, Knows Γ u → S u)
    (loose : Loose M) (indep : ∀ f ∈ Γ, f.indep .cclkBurstPolicy = true ∧ f.indep .cclkDivider = true)
    (closed : .clk .cpu false ∈ Γ) (fits : cfg.map.place.cpuSrc.holds src = true) :
    LeadsTo R S (At cfg (setCpuClockSource cfg src ++ rest) M (Knows ([] ++ Γ)))
      (At cfg rest M (Knows ([.cpuSrc src] ++ Γ))) := by
  have places := wf_placesOk hwf
  refine LeadsTo.trans (LeadsTo.exchange [] [.cpuSrc src] hS safe rfl
    (fun m => loose m m.v _) (fun f hf => (indep f hf).1) (fun u hu _ hk => ⟨rfl, ?_⟩)
    fun u hu _ _ => List.forall_mem_singleton.2 ?_)
    (LeadsTo.writePlain hS (fun u h => safe u (h.subset (by grind))) loose rfl
      (List.forall_mem_cons.2 ⟨rfl, fun f hf => (indep f hf).2⟩) (fun _ _ => rfl) (by simp))
  · have shut : cpuGateOpen u = false := hk (.clk .cpu false) (by simp [closed])
    refine clockFault_eq_none.2 ⟨(clockFault_eq_none.1 hu.inv.clocks).1, fun opens => nomatch shut.symm.trans opens⟩
  · obtain rfl := hu.cfg
    exact cpuSrc_kept places fits

end

end Sys2Proof.Machine
end

section
/-! PROOFS of what the transitions of the Boot Sequencer lead to: 1 to 3 (rules R301 to R303). -/

namespace Sys2Proof.Machine

open Sys2Proof

section
variable {R : FairRun} {s : State} {c : Cluster} {rv : Word} {rest : List Op}

theorem clusterBit_ne_unknown {c : Cluster} {x : ClusterId} (h : x = if c = .p then .performance else .efficiency) :
    (x == .unknown) = false ∧ (if x = .performance then Cluster.p else .e) = c := by
  subst h
  cases c <;> exact ⟨rfl, rfl⟩

/-- Transition 1 selects the cluster the fuses name (rules R287, R301). -/
theorem LeadsTo.transition1 (h : BootStart s c) :
    LeadsTo R (NotYet c)
      (At s.cfg (transition1 s.cfg ++ rest) (fun m => m.seq = .init ∧ m.resetVector = rv) (Knows (startFacts s)))
      (At s.cfg rest (Stage .clusterSelected c rv) (Knows (.active c :: startFacts s))) := by
  have hS := notYet_hardware c
  have known := knows_lasting s.cfg (startFacts s)
  have safe := notYet_of_closed (c := c) (Γ := startFacts s) (by simp [startFacts])
  have wf := h.reset.config
  have shape : Machine.transition1 s.cfg ++ rest = rdOp .bondOut :: letOp .fuseWord :: rdOp .cpuDisable ::
      letOp .bootCluster :: assertOp (.neg (.bootIs .unknown)) s.cfg.posts.unknownCluster ::
        (ifOps (.bootIs .unknown) [.cmd .refuseUnknown] ++ wrOp .clusterControl .bootField ::
          (Machine.endTransition s.cfg.posts.clusterSelected ++ rest)) := by
    simp [Machine.transition1, queryBootCluster]
  rw [shape]
  have fuses (u : State) (hk : Knows (startFacts s) u) :
      bondOutWord u = bondOutWord s ∧ cpuDisableWord u = cpuDisableWord s :=
    hk (.fuses _ _) (by simp [startFacts])
  refine (LeadsTo.read (r := .bondOut) (M' := fun m => (m.seq = .init ∧ m.resetVector = rv) ∧ m.v = bondOutWord s) hS
    known safe rfl fun u _ hm hk => ⟨hm, (fuses u hk).1⟩).trans ?_
  refine (LeadsTo.of_imp (At.let (M' := fun m => (m.seq = .init ∧ m.resetVector = rv) ∧ m.fuseWord = bondOutWord s)
    known.congr fun m hm => hm)).trans ?_
  refine (LeadsTo.read (r := .cpuDisable) (M' := fun m => ((m.seq = .init ∧ m.resetVector = rv) ∧
    m.fuseWord = bondOutWord s) ∧ m.v = cpuDisableWord s) hS
    known safe rfl fun u _ hm hk => ⟨hm, (fuses u hk).2⟩).trans ?_
  refine (LeadsTo.of_imp (At.let (M' := Stage .init c rv) known.congr fun m hm => ?_)).trans ?_
  · obtain ⟨⟨⟨seq, vector⟩, b⟩, d⟩ := hm
    refine ⟨seq, ?_, vector⟩
    show selectCluster s.cfg m.fuseWord m.v = _
    rw [b, d]
    exact h.selected
  refine (LeadsTo.assert hS known safe (stage_loose .init c rv)).trans ((LeadsTo.of_imp At.branch).trans
    (LeadsTo.cases ?unknown ?selected))
  case unknown =>
    refine LeadsTo.of_imp fun t ht => (At.empty (fun m hm => ?_) ht).elim
    have unknown : (m.bootCluster == .unknown) = true := hm.2
    rw [(clusterBit_ne_unknown hm.1.2.1).1] at unknown
    cases unknown
  case selected =>
    have active : LeadsTo R (NotYet c)
        (At s.cfg (wrOp .clusterControl .bootField :: (Machine.endTransition s.cfg.posts.clusterSelected ++ rest))
          (fun m => Stage .init c rv m ∧ condHolds s.cfg m (.bootIs .unknown) = false) (Knows ([] ++ startFacts s)))
        (At s.cfg (Machine.endTransition s.cfg.posts.clusterSelected ++ rest) (Stage .init c rv)
          (Knows ([.active c] ++ startFacts s))) := by
      have value (u : State) (hu : Steady s.cfg u) (hm : Stage .init c rv u.master) :
          clusterOfWord u.cfg.map (exprValue s.cfg u.master .bootField) = c := by
        rw [exprValue, (clusterBit_ne_unknown hm.2.1).2, hu.cfg]
        exact clusterOfWord_placeBit (wf_placesOk wf) c
      refine LeadsTo.exchange [] [.active c] hS safe rfl (fun m hm => hm.1) (List.all_eq_true.1 rfl)
        (fun u hu hm _ => ⟨if_neg ?_, clean_of_plain hu _ (by simp)⟩)
        fun u hu hm _ => List.forall_mem_singleton.2 (value u hu hm.1)
      rw [value u hu hm.1, hu.cfg]
      have present := h.present
      cases c with
      | p => simp
      | e => simp [show s.cfg.dualCluster = true from present]
    exact active.trans (LeadsTo.endTransition hS (knows_lasting _ _) fun u hk => safe u (hk.subset (by grind)))

/-! ### Transition 2 -/

theorem indep_both {Γ : List Fact} {r r' : Reg} (h : Γ.all (fun f => f.indep r && f.indep r') = true) :
    ∀ f ∈ Γ, f.indep r = true ∧ f.indep r' = true :=
  fun f hf => Bool.and_eq_true_iff.1 (List.all_eq_true.1 h f hf)

/-- A timer is usable for a fixed delay (rule R372 (j)). -/
theorem usable_of_ready {p : PllId} (hp : p = .sys ∨ p = .cpu) (fixed : s.cfg.lockStrategy.get p = .fixedDelay)
    {Γ : List Fact} (ready : .timerReady ∈ Γ) (u : State) (hu : Steady s.cfg u) (hk : Knows Γ u) :
    periphUsable u .timer = true := by
  have timer : Fact.holds u .timerReady := hk _ ready
  refine timer ?_
  rw [hu.cfg]
  obtain rfl | rfl := hp
  · exact .inl fixed
  · exact .inr fixed

/-- The USB PLL does not hold a stall of the run up for ever. -/
theorem usb_calm {d : Nat} (hd : d ∈ bootStalls s) {Γ : List Fact} (unstuck : .unstuck (bootStalls s) ∈ Γ) (u : State)
    (hu : Steady s.cfg u) (hk : Knows Γ u) (holds : pllHolds u .usb = true) (bound : s.cfg.pllStabUs.get .usb ≤ d) :
    dividersRun u .usb = true := by
  refine (hk _ unstuck).elim (fun above => ?_) fun calm => calm holds
  have high := above d hd
  rw [hu.cfg] at high
  exact absurd bound (Nat.not_le.2 high)

/-- What is known around the programming of the system PLL. -/
def aroundSys (s : State) (c : Cluster) : List Fact :=
  [.clk .cpu false, .base .cpu (s.pllBase.get .cpu), .settled .cpu, .sysSrc s.sysSrc, .unstuck (bootStalls s), .timerReady,
    .vector s.resetVector, .active c, .idle]

/-- What is known around the programming of the CPU PLL. -/
def aroundCpu (s : State) (c : Cluster) : List Fact :=
  [.clk .cpu false, .sysSrc s.cfg.sysBootSrc, .runs .sys, .unstuck (bootStalls s), .timerReady, .vector s.resetVector,
    .active c, .idle]

/-- The system PLL is programmed, or found running. -/
theorem LeadsTo.programSys {o : Word} (h : BootStart s c) :
    LeadsTo R (NotYet c)
      (At s.cfg (Machine.programPll s.cfg .sys ++ rest) (fun m => Stage .clusterSelected c rv m ∧ m.oscFreq = o)
        (Knows (.base .sys (s.pllBase.get .sys) :: .settled .sys :: aroundSys s c)))
      (At s.cfg rest (fun m => Stage .clusterSelected c rv m ∧ m.oscFreq = o) (Knows (.runs .sys :: aroundSys s c))) := by
  have closed : .clk .cpu false ∈ aroundSys s c := by simp [aroundSys]
  refine LeadsTo.programPll (o := o) h.reset.config (notYet_hardware c) (notYet_of_closed closed) (fun _ _ _ hm => hm) rfl
    (List.all_eq_true.1 rfl) fun fresh => ?_
  refine
    { wf := h.reset.config, hardware := notYet_hardware c, safe := notYet_of_closed closed, loose := fun _ _ _ hm => hm
      code := fun m hm => hm.2, notUsb := by simp, lasts := List.all_eq_true.1 rfl, closed := closed, kept := ?_
      run := h.pre.tables.1, usable := fun fixed => usable_of_ready (.inl rfl) fixed (by simp [aroundSys]), calm := ?_ }
  · obtain osc | ⟨src, late⟩ := h.source_kept fresh
    · exact .inl (by simp [aroundSys, osc])
    · exact .inr ⟨by simp [aroundSys, src], .inl ⟨rfl, late⟩⟩
  · intro fixed u hu hk q ne holds bound
    cases q with
    | sys => exact absurd rfl ne
    | cpu => exact nomatch (not_pllHolds_of_settled (hk (.settled .cpu) (by simp [aroundSys]))).symm.trans holds
    | usb => exact usb_calm (h.fixed_stall (.inl rfl) fixed fresh) (by simp [aroundSys]) u hu hk holds bound

/-- The CPU PLL is programmed, or found running. -/
theorem LeadsTo.programCpu {o : Word} (h : BootStart s c) :
    LeadsTo R (NotYet c)
      (At s.cfg (Machine.programPll s.cfg .cpu ++ rest) (fun m => Stage .clusterSelected c rv m ∧ m.oscFreq = o)
        (Knows (.base .cpu (s.pllBase.get .cpu) :: .settled .cpu :: aroundCpu s c)))
      (At s.cfg rest (fun m => Stage .clusterSelected c rv m ∧ m.oscFreq = o) (Knows (.runs .cpu :: aroundCpu s c))) := by
  have closed : .clk .cpu false ∈ aroundCpu s c := by simp [aroundCpu]
  refine LeadsTo.programPll (o := o) h.reset.config (notYet_hardware c) (notYet_of_closed closed) (fun _ _ _ hm => hm) rfl
    (List.all_eq_true.1 rfl) fun fresh => ?_
  refine
    { wf := h.reset.config, hardware := notYet_hardware c, safe := notYet_of_closed closed, loose := fun _ _ _ hm => hm
      code := fun m hm => hm.2, notUsb := by simp, lasts := List.all_eq_true.1 rfl, closed := closed, kept := ?_
      run := h.pre.tables.2, usable := fun fixed => usable_of_ready (.inr rfl) fixed (by simp [aroundCpu]), calm := ?_ }
  · obtain osc | pll := h.pre.sources.1
    · exact .inl (by simp [aroundCpu, osc])
    · exact .inr ⟨by simp [aroundCpu, pll], .inr ⟨by simp, by simp [aroundCpu]⟩⟩
  · intro fixed u hu hk q ne holds bound
    cases q with
    | sys => exact nomatch (not_pllHolds_of_runs (hk (.runs .sys) (by simp [aroundCpu]))).symm.trans holds
    | cpu => exact absurd rfl ne
    | usb => exact usb_calm (h.fixed_stall (.inr rfl) fixed fresh) (by simp [aroundCpu]) u hu hk holds bound

/-- What is known once the clocks run, of other things than the gates and the power (rule R302). -/
def clockedFacts (s : State) (c : Cluster) : List Fact :=
  [.cpuSrc s.cfg.cpuBootSrc, .runs .cpu, .sysSrc s.cfg.sysBootSrc, .runs .sys, .unstuck (bootStalls s),
    .vector s.resetVector, .active c]

/-- Transition 2 starts the clocks (rule R302). -/
theorem LeadsTo.transition2 (h : BootStart s c) :
    LeadsTo R (NotYet c)
      (At s.cfg (transition2 s.cfg ++ rest) (Stage .clusterSelected c rv) (Knows (.active c :: startFacts s)))
      (At s.cfg rest (Stage .clocksRunning c rv)
        (Knows (.clk .cpu false :: periphsClocked ++ (periphsFree ++ .idle :: clockedFacts s c)))) := by
  have hS := notYet_hardware c
  have wf := h.reset.config
  obtain ⟨-, fitsSys, fitsCpu⟩ := wf_valuesFit wf
  have shape : Machine.transition2 s.cfg ++ rest = Machine.getOscFreq s.cfg ++ (assertOp .oscSupported s.cfg.posts.frequency ::
      wrOp .timerusUsecCfg .usecConst :: wrOp .oscCtrl .oscNote :: (Machine.programPll s.cfg .sys ++
        (Machine.switchSystemClockSource s.cfg s.cfg.sysBootSrc ++ (Machine.programPll s.cfg .cpu ++
          (Machine.setCpuClockSource s.cfg s.cfg.cpuBootSrc ++ (Machine.enablePeripheralClockGates s.cfg.map ++
            (Machine.disableCpuClockGate s.cfg.map ++ (Machine.endTransition s.cfg.posts.clocksRunning ++ rest)))))))) := by
    simp [Machine.transition2, lookup]
  rw [shape]
  have shut {Γ : List Fact} (mem : Fact.clk .cpu false ∈ Γ) := notYet_of_closed (c := c) mem
  have closed : ∀ u, Knows (.active c :: startFacts s) u → NotYet c u := shut (by simp [startFacts])
  have loose (o : Word) : Loose (fun m => Stage .clusterSelected c rv m ∧ m.oscFreq = o) := fun _ _ _ hm => hm
  refine (LeadsTo.getOscFreq wf hS closed (stage_loose .clusterSelected c rv) (fun _ _ hm => hm)
    (List.all_eq_true.1 rfl)).trans (LeadsTo.chooseMaster (·.oscFreq) fun o => ?_)
  refine (LeadsTo.assert hS (knows_lasting _ _) closed (loose o)).trans ?_
  refine (LeadsTo.writePlain (r := .timerusUsecCfg) hS closed (loose o) rfl (List.all_eq_true.1 rfl) (fun _ _ => rfl)
    (by simp)).trans ?_
  refine (LeadsTo.writePlain (r := .oscCtrl) hS closed (loose o) rfl (List.all_eq_true.1 rfl) (fun _ _ => rfl)
    (by simp)).trans ?_
  refine ((LeadsTo.programSys h).weaken fun u _ hk => hk.subset (by simp [startFacts, aroundSys])).trans ?_
  refine ((LeadsTo.switchSystemClockSource (w := s.sysSrc)
    (Γ := [.clk .cpu false, .runs .sys, .base .cpu (s.pllBase.get .cpu), .settled .cpu, .unstuck (bootStalls s), .timerReady,
      .vector s.resetVector, .active c, .idle]) wf hS (shut (by simp)) (loose o) (indep_both rfl) (by simp) fitsSys
    (by simp) h.pre.sources.1).weaken fun u _ hk => hk.subset (by simp [aroundSys])).trans ?_
  refine ((LeadsTo.programCpu h).weaken fun u _ hk => hk.subset (by simp [aroundCpu])).trans ?_
  refine (LeadsTo.setCpuClockSource wf hS (shut (by simp [aroundCpu])) (loose o) (indep_both rfl)
    (by simp [aroundCpu]) fitsCpu).trans ?_
  refine ((LeadsTo.enablePeripheralClockGates (Γ := .idle :: clockedFacts s c) wf hS (shut (by simp)) (loose o)
    (indep_both rfl)).weaken fun u _ hk => hk.subset (by simp [aroundCpu, clockedFacts])).trans ?_
  refine (LeadsTo.disableCpuClockGate wf hS (shut (by simp)) (loose o) (List.all_eq_true.1 rfl)).trans ?_
  exact LeadsTo.imp_left (At.mono (fun m hm => hm.1) fun _ _ hk => hk)
    (LeadsTo.endTransition hS (knows_lasting _ _) (shut (by simp)))

end

end Sys2Proof.Machine
end

section
/-! PROOFS of what the transitions of the Boot Sequencer lead to: 3, 4 up to its last write, and 5 (rules R303 to R305). -/

namespace Sys2Proof.Machine

open Sys2Proof

section
variable {cfg : Config} {R : FairRun} {S : State → Prop} {M M' : Master → Prop} {K : State → Prop} {rest : List Op}
  {Γ : List Fact} {s : State} {c : Cluster} {rv : Word}

/-! ### Branches on a cluster -/

/-- What follows the branch of cluster `c`, of two branches that end before `rest`. -/
def afterBranch (c : Cluster) (other rest : List Op) : List Op :=
  if c = .p then .ctl (.skipIf .always other.length) :: (other ++ rest) else rest

theorem At.afterBranch {other : List Op} (t : State) (h : At cfg (afterBranch c other rest) M K t) : At cfg rest M K t := by
  cases c with
  | p => exact At.jump t h
  | e => exact h

/-- The branch of the cluster a condition names. -/
theorem At.onCluster {f : Cluster → List Op} {x : Cond} (hx : ∀ m, M m → condHolds cfg m x = (c == .p)) (t : State)
    (h : At cfg (ifElseOps x (f .p) (f .e) ++ rest) M K t) :
    At cfg (f c ++ Machine.afterBranch c (f .e) rest) M K t := by
  obtain branch | branch := At.branchElse t h
  · cases c with
    | p => exact At.mono (fun _ hm => hm.1) (fun _ _ hk => hk) t branch
    | e =>
      have wrong (m : Master) (hm : M m ∧ condHolds cfg m x = true) : False := by
        rw [hx m hm.1] at hm
        exact nomatch hm.2
      exact (At.empty wrong branch).elim
  · cases c with
    | p =>
      have wrong (m : Master) (hm : M m ∧ condHolds cfg m x = false) : False := by
        rw [hx m hm.1] at hm
        exact nomatch hm.2
      exact (At.empty wrong branch).elim
    | e => exact At.mono (fun _ hm => hm.1) (fun _ _ hk => hk) t branch

/-- The branch of the active cluster, after `queryActiveCluster()` (rule R288). -/
theorem LeadsTo.onActive {f : Cluster → List Op} (hwf : cfg.wf = true) (hS : OfHardware S) (safe : ∀ u, Knows Γ u → S u)
    (loose : Loose M) (free : ∀ m x, M m → M { m with activeCluster := x }) (active : .active c ∈ Γ) :
    LeadsTo R S (At cfg (queryActiveCluster ++ ifElseOps (.activeIs .p) (f .p) (f .e) ++ rest) M (Knows Γ))
      (At cfg (f c ++ Machine.afterBranch c (f .e) rest) M (Knows Γ)) := by
  have places := wf_placesOk hwf
  have shape : queryActiveCluster ++ ifElseOps (.activeIs .p) (f .p) (f .e) ++ rest =
      rdOp .clusterControl :: letOp .activeCluster :: (ifElseOps (.activeIs .p) (f .p) (f .e) ++ rest) := by
    simp [queryActiveCluster]
  rw [shape]
  refine (LeadsTo.read (M' := fun m => M m ∧ clusterOfWord cfg.map m.v = c) hS (knows_lasting cfg Γ) safe rfl
    fun u hu hm hk => ⟨loose _ _ _ hm, ?_⟩).trans ?_
  · have here : u.activeCluster = c := hk _ active
    show clusterOfWord cfg.map (placeBit u.cfg.map.place.activeCluster (clusterBit u.cfg.map u.activeCluster)) = c
    rw [hu.cfg, clusterOfWord_placeBit places, here]
  refine (LeadsTo.of_imp (At.let (a := .activeCluster) (M' := fun m => M m ∧ m.activeCluster = c) (knows_congr Γ)
    fun m hm => ⟨free m (clusterOfWord cfg.map m.v) hm.1, hm.2⟩)).trans (LeadsTo.of_imp fun t ht => ?_)
  refine At.mono (fun _ hm => hm.1) (fun _ _ hk => hk) t (At.onCluster (f := f) (fun m hm => ?_) t ht)
  show (m.activeCluster == .p) = _
  rw [hm.2]

/-! ### Transition 3 -/

theorem usable_of_clocked (free : periphsFree ⊆ Γ) (clocked : periphsClocked ⊆ Γ) {u : State} (hk : Knows Γ u) {g : Gate}
    (hg : g ∈ Gate.periphs) : periphUsable u g = true := by
  have on : u.clkEnb.get g = true := hk (.clk g true) (clocked (List.mem_map_of_mem hg))
  have released : u.rstDev.get g = false := hk (.devFree g) (free (List.mem_map_of_mem hg))
  rw [periphUsable, on, released]
  rfl

/-- What is known of a powered cluster before its cores are held (rule R303). -/
def poweredUp (s : State) (c : Cluster) : List Fact := (clusterParts c).map .freed ++ (poweredFacts c ++ clockedFacts s c)

/-- Transition 3 powers the boot cluster up and removes its clamps (rule R303). -/
theorem LeadsTo.transition3 (h : BootStart s c) :
    LeadsTo R (NotYet c)
      (At s.cfg (transition3 s.cfg ++ rest) (Stage .clocksRunning c rv)
        (Knows (.clk .cpu false :: periphsClocked ++ (periphsFree ++ .idle :: clockedFacts s c))))
      (At s.cfg rest (Stage .powerApplied c rv)
        (Knows (.clk .cpu false :: periphsClocked ++ (periphsFree ++ poweredUp s c)))) := by
  have hS := notYet_hardware c
  have wf := h.reset.config
  have stage := stage_loose .clocksRunning c rv
  have shut {Γ : List Fact} (mem : Fact.clk .cpu false ∈ Γ) := notYet_of_closed (c := c) mem
  have shape : Machine.transition3 s.cfg ++ rest =
      ifElseOps (.bootIs .performance) (Machine.powerUpCluster s.cfg .p ++ Machine.removeIoClamps s.cfg .p)
        (Machine.powerUpCluster s.cfg .e ++ Machine.removeIoClamps s.cfg .e) ++
      (Machine.endTransition s.cfg.posts.powerApplied ++ rest) := by
    simp [Machine.transition3]
  rw [shape]
  refine (LeadsTo.of_imp (At.onCluster (c := c)
    (f := fun c => Machine.powerUpCluster s.cfg c ++ Machine.removeIoClamps s.cfg c) fun m hm => ?_)).trans ?_
  · show (m.bootCluster == .performance) = _
    rw [hm.2.1]
    cases c <;> rfl
  simp only [List.append_assoc]
  refine ((LeadsTo.powerUpCluster (Γ := .clk .cpu false :: periphsClocked ++ (periphsFree ++ clockedFacts s c)) c wf hS
    (shut (by simp)) stage (indep_both rfl)).weaken fun u _ hk => hk.subset (by grind)).trans ?_
  refine (LeadsTo.removeIoClamps wf hS (shut (by simp)) stage ?_ (fun i hi => by simp [powered_mem hi])
    (fun u _ hk => usable_of_clocked (by grind) (by grind) hk (by simp [Gate.periphs]))
    fun u hu hk q holds bound => ?_).trans ?_
  · cases c <;> exact indep_both rfl
  · cases q with
    | sys => exact nomatch (not_pllHolds_of_runs (hk (.runs .sys) (by simp [clockedFacts]))).symm.trans holds
    | cpu => exact nomatch (not_pllHolds_of_runs (hk (.runs .cpu) (by simp [clockedFacts]))).symm.trans holds
    | usb => exact usb_calm List.mem_cons_self (by simp [clockedFacts]) u hu hk holds bound
  refine (LeadsTo.of_imp At.afterBranch).trans ((LeadsTo.endTransition hS (knows_lasting _ _) (shut (by simp))).conclude
    fun u _ hk => hk.subset ?_)
  unfold poweredUp
  grind

/-! ### Transition 4 -/

/-- The secondary cores of every cluster are held (rule R293). -/
def heldFacts (cfg : Config) : List Fact := .held .p :: if cfg.dualCluster then [.held .e] else []

theorem held_mem {d : Cluster} (present : cfg.clusterPresent d = true) : .held d ∈ heldFacts cfg := by
  cases d with
  | p => exact List.mem_cons_self
  | e => simp [heldFacts, show cfg.dualCluster = true from present]

theorem heldFacts_indep {f : Fact} (hf : f ∈ heldFacts cfg) (r : Reg) : f.indep r = true := by
  simp only [heldFacts, List.mem_cons] at hf
  obtain rfl | other := hf
  · rfl
  · split at other
    · obtain rfl := List.mem_singleton.1 other
      rfl
    · cases other

/-- `holdAllSecondaryCoresInReset()` (rule R293). -/
theorem LeadsTo.holdAll (hwf : cfg.wf = true) (hS : OfHardware S) (safe : ∀ u, Knows Γ u → S u) (loose : Loose M)
    (indep : ∀ f ∈ Γ, ∀ d, f.indep (.rstCmplxSet d) = true) :
    LeadsTo R S (At cfg (holdAllSecondaryCoresInReset cfg ++ rest) M (Knows Γ))
      (At cfg rest M (Knows (heldFacts cfg ++ Γ))) := by
  rw [holdAllSecondaryCoresInReset, List.append_assoc]
  refine (LeadsTo.holdSecondary hwf hS safe loose rfl fun f hf => indep f hf .p).trans ?_
  unfold heldFacts
  split
  next dual =>
    refine (LeadsTo.holdSecondary (c := .e) hwf hS (fun u h => safe u (h.subset (by grind))) loose dual
      (List.forall_mem_cons.2 ⟨rfl, fun f hf => indep f hf .e⟩)).conclude fun u _ hk => hk.subset (by grind)
  next => exact LeadsTo.of_imp fun _ h => h

/-- What is known of everything but the gates, before core 0 is released. -/
def settledFacts (s : State) (c : Cluster) : List Fact := heldFacts s.cfg ++ poweredUp s c

theorem settledFacts_indep {r : Reg} (hr : (poweredUp s c).all (Fact.indep r) = true) :
    ∀ f ∈ settledFacts s c, f.indep r = true :=
  fun f hf => (List.mem_append.1 hf).elim (fun held => heldFacts_indep held r) (List.all_eq_true.1 hr f)

theorem poweredUp_mem {f : Fact} (hf : f ∈ clockedFacts s c) : f ∈ settledFacts s c := by
  simp [settledFacts, poweredUp, hf]

theorem active_mem : .active c ∈ settledFacts s c := poweredUp_mem (by simp [clockedFacts])

theorem powered_settled {i : Part} (hi : i ∈ clusterParts c) : .powered i ∈ settledFacts s c := by
  simp [settledFacts, poweredUp, powered_mem hi]

theorem freed_settled {i : Part} (hi : i ∈ clusterParts c) : .freed i ∈ settledFacts s c := by
  simp [settledFacts, poweredUp, hi]

theorem cpuPart_mem (c : Cluster) : cpuPart c ∈ clusterParts c := by cases c <;> simp [cpuPart, clusterParts]

theorem nonCpuPart_mem (c : Cluster) : nonCpuPart c ∈ clusterParts c := by cases c <;> simp [nonCpuPart, clusterParts]

/-- The CPU clock is clean from either source of the boot configuration (rules R284, R372 (f)). -/
theorem BootStart.cclkOk (h : BootStart s c) {u : State} (hu : Steady s.cfg u)
    (known : ∀ f ∈ clockedFacts s c, f.indep .resetVector = true → f.holds u) : cclkOk u = true := by
  have source : u.cpuSrc = s.cfg.cpuBootSrc := known (.cpuSrc _) (by simp [clockedFacts]) rfl
  have sys := pllOutOk_of_runs (known (.runs .sys) (by simp [clockedFacts]) rfl)
  have cpu := pllOutOk_of_runs (known (.runs .cpu) (by simp [clockedFacts]) rfl)
  obtain osc | pllSys | pllCpu := h.pre.sources.2
  · simp [Machine.cclkOk, source, hu.cfg, osc]
  · simp [Machine.cclkOk, source, hu.cfg, pllSys, sys]
  · simp [Machine.cclkOk, source, hu.cfg, pllCpu, cpu]

/-- What is known before the last write of transition 4 (rules R295, R304). -/
def readyFacts (s : State) (c : Cluster) : List Fact :=
  releaseFacts s.cfg c ++ (.clk .cpu true :: periphsClocked ++ (periphsFree ++ settledFacts s c))

/-- What follows the last write of transition 4. -/
def afterRelease (cfg : Config) (c : Cluster) (rest : List Op) : List Op :=
  Machine.afterBranch c (releaseCore0 cfg .e) (endTransition cfg.posts.resetReleased ++ rest)

/-- Transition 4 comes to its last write (rules R293 to R295, R304). -/
theorem LeadsTo.transition4 (h : BootStart s c) :
    LeadsTo R (NotYet c)
      (At s.cfg (transition4 s.cfg ++ rest) (Stage .powerApplied c rv)
        (Knows (.clk .cpu false :: periphsClocked ++ (periphsFree ++ poweredUp s c))))
      (At s.cfg (wrOp (.rstCmplxClr c) (.lit (core0ReleaseMask s.cfg)) :: afterRelease s.cfg c rest)
        (Stage .powerApplied c rv) (Knows (readyFacts s c))) := by
  have hS := notYet_hardware c
  have wf := h.reset.config
  have stage := stage_loose .powerApplied c rv
  have shut {Γ : List Fact} (mem : Fact.clk .cpu false ∈ Γ) := notYet_of_closed (c := c) mem
  have held {Γ : List Fact} (mem : Fact.asserted c ∈ Γ) := notYet_of_asserted mem
  have shape : Machine.transition4 s.cfg ++ rest = holdAllSecondaryCoresInReset s.cfg ++
      (assertCore0AndNonCpuReset s.cfg ++ (Machine.enableCpuClockGate s.cfg.map ++
        (releaseCore0AndNonCpuReset s.cfg ++ (Machine.endTransition s.cfg.posts.resetReleased ++ rest)))) := by
    simp [Machine.transition4]
  rw [shape]
  refine (LeadsTo.holdAll wf hS (shut (by simp)) stage fun f hf d => ?_).trans ?_
  · have all : (.clk .cpu false :: periphsClocked ++ (periphsFree ++ poweredUp s c)).all
        (Fact.indep (.rstCmplxSet d)) = true := by cases c <;> rfl
    exact List.all_eq_true.1 all f hf
  refine (LeadsTo.onActive (c := c) (f := Machine.assertCore0 s.cfg) wf hS (shut (by simp)) stage (fun _ _ hm => hm)
    (by simp [poweredUp, clockedFacts])).trans ?_
  refine ((LeadsTo.assertCore0 (Γ := .clk .cpu false :: periphsClocked ++ settledFacts s c) wf hS (shut (by simp)) stage
    h.present ?_).weaken fun u _ hk => hk.subset ?_).trans ((LeadsTo.of_imp At.afterBranch).trans ?_)
  · refine List.forall_mem_append.2 ⟨indep_both rfl, fun f hf => ⟨settledFacts_indep ?_ f hf, settledFacts_indep ?_ f hf⟩⟩
    · cases c <;> rfl
    · cases c <;> rfl
  · unfold settledFacts
    grind
  refine ((LeadsTo.enableCpuClockGate (c := c) (Γ := .asserted c :: (periphsFree ++ settledFacts s c)) wf hS
    (held (by simp)) stage ?_ (by simp [active_mem]) (by simp [powered_settled (cpuPart_mem c)]) (by simp)
    fun u hu hk => h.cclkOk hu fun f hf _ => hk f (by simp [poweredUp_mem hf])).weaken
    fun u _ hk => hk.subset (by grind)).trans ?_
  · refine List.forall_mem_cons.2 ⟨rfl, List.forall_mem_append.2 ⟨List.all_eq_true.1 rfl, settledFacts_indep ?_⟩⟩
    cases c <;> rfl
  refine (LeadsTo.onActive (c := c) (f := Machine.releaseCore0 s.cfg) wf hS (held (by simp)) stage (fun _ _ hm => hm)
    (by simp [active_mem])).trans ?_
  refine ((LeadsTo.releaseSteps (Γ := .clk .cpu true :: periphsClocked ++ (periphsFree ++ settledFacts s c)) wf hS
    (held (by simp)) stage h.present ?_ (by simp [active_mem]) (by simp [powered_settled (nonCpuPart_mem c)])).weaken
    fun u _ hk => hk.subset (by grind))
  refine List.forall_mem_append.2 ⟨List.all_eq_true.1 ?_, List.forall_mem_append.2 ⟨List.all_eq_true.1 ?_, fun f hf => ?_⟩⟩
  · cases c <;> rfl
  · cases c <;> rfl
  · simp only [Fact.outlastsRelease, Bool.and_eq_true]
    refine ⟨⟨⟨⟨?_, ?_⟩, ?_⟩, ?_⟩, ?_⟩ <;> refine settledFacts_indep ?_ f hf <;> cases c <;> rfl

end

end Sys2Proof.Machine
end

section
/-! PROOF of the end-state claim of rule R371: the last write of the release, transition 5 and the run as a whole. -/

namespace Sys2Proof.Machine

open Sys2Proof

section
variable {R : FairRun} {s : State} {c : Cluster} {rv : Word} {rest : List Op}

/-- What is known once core 0 is released (rule R304). -/
def releasedFacts (s : State) (c : Cluster) : List Fact :=
  [.released c, .watchdog c] ++ ([.nonCpuOut c, .nonCpuFree c, .devFree .cpu] ++
    (.clk .cpu true :: periphsClocked ++ (periphsFree ++ settledFacts s c)))

/-- What is known at the end, of other things than the reset vector (rule R371). -/
def finalFacts (s : State) (c : Cluster) : List Fact := (releasedFacts s c).filter fun f => f.indep .resetVector

theorem indep_of_all {Γ : List Fact} {r : Reg} (h : Γ.all (Fact.indep r) = true) : ∀ f ∈ Γ, f.indep r = true :=
  List.all_eq_true.1 h

theorem released_settled {f : Fact} (hf : f ∈ settledFacts s c) : f ∈ releasedFacts s c := by simp [releasedFacts, hf]

theorem released_indep {f : Fact} (hf : f ∈ releasedFacts s c) :
    (f ∈ readyFacts s c ∧ f.indep (.rstCmplxClr c) = true) ∨ f ∈ [Fact.released c, .watchdog c] := by
  obtain fresh | known := List.mem_append.1 hf
  · exact .inr fresh
  refine .inl ⟨?_, ?_⟩
  · unfold readyFacts releaseFacts
    grind
  · obtain here | known := List.mem_append.1 known
    · exact indep_of_all (Γ := [.nonCpuOut c, .nonCpuFree c, .devFree .cpu]) rfl f here
    obtain gates | known := List.mem_append.1 known
    · exact indep_of_all (Γ := .clk .cpu true :: periphsClocked) rfl f gates
    obtain periphs | known := List.mem_append.1 known
    · exact indep_of_all (Γ := periphsFree) rfl f periphs
    refine settledFacts_indep ?_ f known
    cases c <;> rfl

/-- The last write of transition 4, when the master's turn comes (rules R221, R295). -/
theorem At.lastWrite (h : BootStart s c) (t : State)
    (ht : At s.cfg (wrOp (.rstCmplxClr c) (.lit (core0ReleaseMask s.cfg)) :: rest) (Stage .powerApplied c rv)
      (Knows (readyFacts s c)) t) :
    At s.cfg rest (Stage .powerApplied c rv) (Knows (releasedFacts s c)) (runMove t .master) ∧
      (runMove t .master).history =
        t.history ++ [.wr (.rstCmplxClr c) ((Reg.rstCmplxClr c).addr s.cfg) (core0ReleaseMask s.cfg)] := by
  have wf := h.reset.config
  have known {u : State} (hk : Knows (readyFacts s c) u) {f : Fact} (hf : f ∈ settledFacts s c) : f.holds u :=
    hk f (by simp [readyFacts, hf])
  have moved := At.write (M' := Stage .powerApplied c rv) (K' := Knows (releasedFacts s c))
    (e := .lit (core0ReleaseMask s.cfg)) (knows_congr _) (r := .rstCmplxClr c) h.present (fun m => stage_loose _ _ _ m m.v rest)
    (fun u hu _ hk => ⟨?check, clean_of_plain hu _ (by simp)⟩) (fun u w hu _ hk done f hf => ?store) t ht
  case check =>
    have free : nonCpuAsserted u c = false := hk (.nonCpuFree c) (by simp [readyFacts, releaseFacts])
    have out : u.nonCpuInReset.get c = false := hk (.nonCpuOut c) (by simp [readyFacts, releaseFacts])
    have clock : u.clkEnb.get .cpu = true := hk (.clk .cpu true) (by simp [readyFacts])
    have powered : isPowered u (cpuPart c) = true :=
      (known hk (powered_settled (cpuPart_mem c)) : Fact.holds u (.powered (cpuPart c))).1
    have mirrored (dual : s.cfg.dualCluster = true) : u.softRst.p = u.softRst.e :=
      hk .mirrored (by simp [readyFacts, releaseFacts, mirrorFacts, dual])
    rw [exprValue, ← hu.cfg]
    exact ownCheck_core0Release (by rw [hu.cfg]; exact wf) powered free out clock (by rw [hu.cfg]; exact mirrored)
  case store =>
    obtain ⟨before, indep⟩ | fresh := released_indep hf
    · exact Fact.holds_stores (hk f before) indep done
    · have asserted : Fact.holds u (.asserted c) := hk _ (by simp [readyFacts, releaseFacts])
      rw [exprValue, ← hu.cfg]
      exact core0_released (by rw [hu.cfg]; exact wf) asserted f fresh
  obtain ⟨after, u, -, history⟩ := moved
  exact ⟨after, history⟩

theorem core0Runs_congr {u v : State} (hw : v.toHwState = u.toHwState) (hc : v.cfg = u.cfg) :
    core0Runs v c = core0Runs u c := by
  obtain ⟨a⟩ := u
  obtain ⟨b⟩ := v
  obtain rfl : b = a := hw
  obtain rfl : _ = _ := hc
  rfl

theorem finalFacts_mem {f : Fact} (hf : f ∈ releasedFacts s c) (hi : f.indep .resetVector = true) : f ∈ finalFacts s c :=
  List.mem_filter.2 ⟨hf, hi⟩

theorem knows_final {u : State} (hk : Knows (releasedFacts s c) u) : Knows (finalFacts s c) u :=
  hk.subset (List.filter_subset_self _)

/-- Core 0 runs once it is released (rule R58). -/
theorem core0Runs_of_final (h : BootStart s c) {u : State} (hu : Steady s.cfg u) (hk : Knows (finalFacts s c) u) :
    core0Runs u c = true := by
  have known {f : Fact} (hf : f ∈ releasedFacts s c) (hi : f.indep .resetVector = true) : f.holds u :=
    hk f (finalFacts_mem hf hi)
  have settled {f : Fact} (hf : f ∈ settledFacts s c) (hi : f.indep .resetVector = true) : f.holds u :=
    known (released_settled hf) hi
  have active : u.activeCluster = c := settled active_mem rfl
  have powered : clusterPowered u c = true := List.all_eq_true.2 fun i hi =>
    (settled (powered_settled hi) rfl : Fact.holds u (.powered i)).1
  have freed : (clusterParts c).all (fun i => !u.clamp.get i) = true := List.all_eq_true.2 fun i hi => by
    rw [(settled (freed_settled hi) rfl : Fact.holds u (.freed i)).1]
    rfl
  have gate : cpuGateOpen u = true := known (f := .clk .cpu true) (by simp [releasedFacts]) rfl
  have complex : u.rstDev.cpu = false := known (f := .devFree .cpu) (by simp [releasedFacts]) rfl
  have free : nonCpuAsserted u c = false := known (f := .nonCpuFree c) (by simp [releasedFacts]) rfl
  have out : u.nonCpuInReset.get c = false := known (f := .nonCpuOut c) (by simp [releasedFacts]) rfl
  have released (k : LineKind) (ne : k ≠ .wd) : lineAsserted u c k 0 = false :=
    known (f := .released c) (by simp [releasedFacts]) rfl k ne
  have clock := h.cclkOk hu fun f hf hi => settled (poweredUp_mem hf) hi
  simp only [core0Runs, active, powered, freed, gate, clock, complex, free, out, released .cpu (by simp),
    released .dbg (by simp), released .core (by simp), released .cx (by simp), beq_self_eq_true, Bool.not_false,
    Bool.and_self]

/-! ### Transition 5 and the end state -/

/-- The reset vector at the end (rule R305). -/
def finalVector (s : State) (rv : Word) : Word := if rv = 0 then s.resetVector else rv

/-- Transition 5 hands off, after the `Post` of transition 4 (rule R305). -/
theorem LeadsTo.transition5 :
    LeadsTo R (fun _ => True)
      (At s.cfg (postOp s.cfg.posts.resetReleased :: transition5 s.cfg) (Stage .resetReleased c rv)
        (Knows (releasedFacts s c)))
      (At s.cfg [] (Stage .handedOff c rv) (Knows ([.vector (finalVector s rv)] ++ finalFacts s c))) := by
  have hS : OfHardware fun _ => True := fun _ _ _ _ _ => trivial
  have finish : LeadsTo R (fun _ => True)
      (At s.cfg (Machine.endTransition s.cfg.posts.handedOff ++ []) (Stage .resetReleased c rv)
        (Knows ([.vector (finalVector s rv)] ++ finalFacts s c)))
      (At s.cfg [] (Stage .handedOff c rv) (Knows ([.vector (finalVector s rv)] ++ finalFacts s c))) :=
    LeadsTo.endTransition hS (knows_lasting _ _) fun _ _ => trivial
  have shape : Machine.transition5 s.cfg =
      ifOps .vectorGiven [wrOp .resetVector .vectorArg] ++ Machine.endTransition s.cfg.posts.handedOff := rfl
  rw [shape]
  rw [List.append_nil] at finish
  refine (LeadsTo.post hS (knows_lasting _ _) (fun _ _ => trivial) fun m => stage_loose _ _ _ m m.v _).trans
    ((LeadsTo.of_imp At.branch).trans (LeadsTo.cases ?given ?kept))
  case given =>
    refine LeadsTo.trans (LeadsTo.weaken (Γ' := [] ++ finalFacts s c) (LeadsTo.exchange [] [.vector (finalVector s rv)] hS
      (fun _ _ => trivial) rfl (fun m hm => hm.1) (fun f hf => (List.mem_filter.1 hf).2)
      (fun u hu _ _ => ⟨rfl, clean_of_plain hu _ (by simp)⟩) fun u _ hm _ => List.forall_mem_singleton.2 ?_)
      fun u _ => knows_final) finish
    have given : (u.master.resetVector != 0) = true := hm.2
    rw [hm.1.2.2] at given
    show u.master.resetVector = finalVector s rv
    rw [hm.1.2.2, finalVector, if_neg (bne_iff_ne.1 given)]
  case kept =>
    refine LeadsTo.trans (LeadsTo.of_imp fun t ht => ?_) finish
    obtain ⟨u, hu, hm, hk, e⟩ := ht
    have none : (u.master.resetVector != 0) = false := hm.2
    rw [hm.1.2.2] at none
    have old : u.resetVector = s.resetVector :=
      
      hk (.vector s.resetVector) (released_settled (poweredUp_mem (by simp [clockedFacts])))
    have same : u.resetVector = finalVector s rv := by rw [old, finalVector, if_pos (by simpa using none)]
    exact ⟨u, hu, hm.1, .cons same (knows_final hk), e⟩

/-- The end state of rule R371, from what is known at the end. -/
theorem handedOff_of_final (h : BootStart s c) {t : State}
    (ht : At s.cfg [] (Stage .handedOff c rv) (Knows ([.vector (finalVector s rv)] ++ finalFacts s c)) t) :
    t.HandedOffTo c rv s.resetVector := by
  obtain ⟨u, hu, hm, hk, rfl⟩ := ht
  have known {f : Fact} (hf : f ∈ releasedFacts s c) (hi : f.indep .resetVector = true) : f.holds u :=
    hk f (List.mem_append_right _ (finalFacts_mem hf hi))
  have settled {f : Fact} (hf : f ∈ settledFacts s c) (hi : f.indep .resetVector = true) : f.holds u :=
    known (released_settled hf) hi
  have clocked {f : Fact} (hf : f ∈ clockedFacts s c) (hi : f.indep .resetVector = true) : f.holds u :=
    settled (poweredUp_mem hf) hi
  have sysRuns : Fact.holds u (.runs .sys) := clocked (by simp [clockedFacts]) rfl
  have cpuRuns : Fact.holds u (.runs .cpu) := clocked (by simp [clockedFacts]) rfl
  have marks : u.fault = none ∧ u.refused = false := by
    have running := hu.running
    rw [State.ended, Bool.or_eq_false_iff] at running
    exact ⟨Option.isNone_iff_eq_none.1 (by rw [← Option.not_isSome, running.1]; rfl), running.2⟩
  refine
    { seq := hm.1, marks := marks, active := settled active_mem rfl, runs := ?_, held := ?_, usable := ?_
      stable := ⟨sysRuns.2, cpuRuns.2⟩, sources := ⟨?_, ?_⟩, watchdog := ?_, vector := ?_ }
  · have here : core0Runs (u.load []).settle c = core0Runs u c := core0Runs_congr rfl rfl
    exact here.trans (core0Runs_of_final h hu (hk.subset (List.subset_append_right _ _)))
  · intro d present
    exact settled (List.mem_append_left _ (held_mem (by rwa [← hu.cfg]))) rfl
  · intro g hg
    have on : u.clkEnb.get g = true := known (f := .clk g true) (by simp [releasedFacts, periphsClocked, hg]) rfl
    have free : u.rstDev.get g = false := known (f := .devFree g) (by simp [releasedFacts, periphsFree, hg]) rfl
    show (u.clkEnb.get g && !u.rstDev.get g) = true
    rw [on, free]
    rfl
  · exact (clocked (f := .sysSrc s.cfg.sysBootSrc) (by simp [clockedFacts]) rfl).trans (by rw [settle_cfg, load_cfg, hu.cfg])
  · exact (clocked (f := .cpuSrc s.cfg.cpuBootSrc) (by simp [clockedFacts]) rfl).trans (by rw [settle_cfg, load_cfg, hu.cfg])
  · exact known (f := .watchdog c) (by simp [releasedFacts]) rfl
  · exact hk (.vector (finalVector s rv)) (by simp)

/-! ### The run -/

theorem At.seq_of_cmd {x : Cmd} {seq : SeqState} {K : State → Prop} {t : State}
    (h : At s.cfg (.cmd x :: rest) (Stage seq c rv) K t) : t.master.seq = seq := by
  obtain ⟨u, -, hm, -, rfl⟩ := h
  exact hm.1

/-- The statements of `runBootSequencer` as they are run. -/
theorem bootProgram_eq (cfg : Config) :
    bootProgram cfg = transition1 cfg ++ (transition2 cfg ++ (transition3 cfg ++ (transition4 cfg ++ transition5 cfg))) := by
  simp [bootProgram]

/-- A run of `runBootSequencer` comes to the last write of transition 4, before which core 0 does not run. -/
theorem LeadsTo.boot (h : BootStart s c) :
    LeadsTo R (NotYet c)
      (At s.cfg (bootProgram s.cfg) (fun m => m.seq = .init ∧ m.resetVector = rv) (Knows (startFacts s)))
      (At s.cfg (wrOp (.rstCmplxClr c) (.lit (core0ReleaseMask s.cfg)) ::
        afterRelease s.cfg c (Machine.transition5 s.cfg)) (Stage .powerApplied c rv) (Knows (readyFacts s c))) := by
  rw [bootProgram_eq]
  exact (LeadsTo.transition1 h).trans ((LeadsTo.transition2 h).trans ((LeadsTo.transition3 h).trans (LeadsTo.transition4 h)))

/-- A run starts with what `PRE_BOOT` and the reset constraints say (rules R306, R351, R372). -/
theorem at_start (h : BootStart s c) {t : State} (start : runBootSequencer rv s = some t) :
    t.cfg = s.cfg ∧ At s.cfg (bootProgram s.cfg) (fun m => m.seq = .init ∧ m.resetVector = rv) (Knows (startFacts s)) t := by
  unfold runBootSequencer at start
  split at start
  next fresh =>
    cases start
    obtain ⟨fault, refused, -, -, -⟩ := h.reset.marks
    refine ⟨rfl, { s with master := { s.master with resetVector := rv } }, ?_, ⟨fresh.1, rfl⟩, ?_, ?_⟩
    · exact ⟨rfl, by rw [State.ended, show s.fault = none from fault, show s.refused = false from refused]; rfl,
        inv_congr (s := s) rfl rfl h.reset.inv⟩
    · exact knows_congr _ s _ rfl rfl (knows_startFacts h)
    · rw [bootProgram_eq]
      rfl
  next => cases start

end

/-- Settles O59. Each transition leads to the next whatever the agents do meanwhile, and core 0 runs from the last write
of transition 4 on. -/
theorem endStateConsistent : Obligations.EndStateConsistent := by
  unfold Obligations.EndStateConsistent EndStateClaimConsistent
  intro s reset pre source countdown t rv c sched selected start master fair
  have h : BootStart s c := ⟨reset, pre, source, countdown, selected⟩
  obtain ⟨cfg, first⟩ := at_start (rv := rv) h start
  let R : FairRun := ⟨sched, t, master, fair⟩
  obtain ⟨n, -, ready, before⟩ := LeadsTo.boot (R := R) h 0 first
  obtain ⟨k, le, who, waiting⟩ := LeadsTo.master_turn (R := R) (At.agents (knows_lasting _ _)) ready
  have atWrite := waiting k le (Nat.le_refl k)
  obtain ⟨after, history⟩ := At.lastWrite h _ atWrite
  have next : runMove (R.state k) .master = R.state (k + 1) := by rw [R.state_succ, who]
  rw [next] at after history
  have released := At.endTransition (knows_congr _) _ (At.afterBranch _ after)
  obtain ⟨m, later, done, -⟩ := LeadsTo.transition5 (R := R) (k + 1) released
  refine ⟨m, handedOff_of_final h done, k, later, ⟨who, atWrite.seq_of_cmd, released.seq_of_cmd, ?_⟩, ?_, fun j hj => ?_⟩
  · rw [cfg]
    exact history
  · obtain ⟨u, hu, -, hk, e⟩ := after
    have here : core0Runs (R.state (k + 1)) c = core0Runs u c := core0Runs_congr (by rw [e]; rfl) (by rw [e]; rfl)
    exact here.trans (core0Runs_of_final h hu (knows_final hk))
  · obtain early | waits := Nat.lt_or_ge j n
    · exact before j (Nat.zero_le j) early
    · exact At.safe (notYet_hardware c) (notYet_of_asserted (by simp [readyFacts, releaseFacts])) _ (waiting j waits hj)

end Sys2Proof.Machine
end
